-- ==== Sys2Proof/Word.lean ====
section
/-! DEFINITION. The widths of the block (spec/00_scope.md R7, R11) and the three-byte frame (30_encoding.md R83). -/

namespace Sys2Proof

/-- A byte of a frame, an 8-bit register address or the status byte (R7 ADDR_WIDTH, R26). -/
abbrev Byte := BitVec 8

/-- A 16-bit register value (R7 REG_WIDTH). -/
abbrev Half := BitVec 16

/-- A host command word or response word (30_encoding.md R81, R82). -/
abbrev Word := BitVec 32

/-- The bytes of one exchange; `b0` is "the first byte handed to or returned by XFER" (30_encoding.md R83). -/
structure Bytes3 where
  b0 : Byte
  b1 : Byte
  b2 : Byte
deriving DecidableEq, Repr, Inhabited

end Sys2Proof
end

