-- ==== Sys2Proof/Config.lean ====
section
/-! DEFINITION. The implementation parameters (spec/00_scope.md R8) with the reference instantiation P0, and the
environment's conduct during one frame transaction with its free value (R6, 60_exceptions.md R236). -/

namespace Sys2Proof

/-- `BCAST_POLARITY` (R8): whether a 1 in the broadcast-configuration register includes the channel. -/
inductive Polarity where
  | direct
  | inverted
deriving DecidableEq, Repr

/-- The range codes of P0 by name (30_encoding.md R104; PRESUMED, log 3). No rule depends on a name. -/
inductive RangeName where
  | u5 | u10 | u20 | u40 | b5 | b10 | b20 | b2v5
deriving DecidableEq, Repr

/-- The code of a P0 range name (30_encoding.md R104; PRESUMED, log 3). -/
def RangeName.code : RangeName → BitVec 4
  | .u5 => 0x0
  | .u10 => 0x1
  | .u20 => 0x2
  | .u40 => 0x4
  | .b5 => 0x9
  | .b10 => 0xA
  | .b20 => 0xC
  | .b2v5 => 0xE

/-- A range code: a member of the closed set `valid` (`VALID_RANGE`), with its explicit numeric code. "Represented as a
closed tagged enumeration with explicit numeric codes, not as opaque integers" (30_encoding.md R101); the enumeration is
the parameter `VALID_RANGE`, so the type is indexed by it. Nothing else can be stored in a range field (R100). -/
structure RangeCode (valid : List (BitVec 4)) where
  code : BitVec 4
  mem : code ∈ valid
deriving DecidableEq, Repr

/-- The raw 4-bit result of decoding a range field, which need not be a range code: GET_RANGE "can return a code outside
`VALID_RANGE`" (30_encoding.md R101). -/
abbrev RawRange := BitVec 4

/-- The parameters of R8, each under its own name. An instance of the block has one `Config` for ever: it is a
field of the state that nothing writes. `DEFAULT_RANGE` is in `VALID_RANGE` (R9(e)) by its type. `spiMode` is read by
no rule (20_memory.md R53). Times are natural numbers of time units (DESIGN CHOICE, log 4). -/
structure Config where
  aDeviceId : Byte
  aStatus : Byte
  aSpiConfig : Byte
  aGenConfig : Byte
  aBrdConfig : Byte
  aSyncConfig : Byte
  aToggConfig0 : Byte
  aToggConfig1 : Byte
  aDacPwdwn : Byte
  aDacRangeBase : Byte
  aTrigger : Byte
  aBrdcast : Byte
  aDacBase : Byte
  tGuard : Nat
  tPre : Nat
  tCsHigh : Nat
  dummyByte : Byte
  validRange : List (BitVec 4)
  defaultRange : RangeCode validRange
  spiConfigInit : Half
  bcastPolarity : Polarity
  spiMode : Nat
  trigLdac : Half
  trigAlarmReset : Half
  trigDefaultsReset : Half
  trigToggle1 : Half
  trigToggle2 : Half
  trigToggle3 : Half
deriving DecidableEq, Repr

/-- P0, the reference instantiation of R8 (PRESUMED, log 3). Only `State.reset` and the tests use it. -/
def Config.p0 : Config where
  aDeviceId := 0x01
  aStatus := 0x02
  aSpiConfig := 0x03
  aGenConfig := 0x04
  aBrdConfig := 0x05
  aSyncConfig := 0x06
  aToggConfig0 := 0x07
  aToggConfig1 := 0x08
  aDacPwdwn := 0x09
  aDacRangeBase := 0x0A
  aTrigger := 0x0E
  aBrdcast := 0x0F
  aDacBase := 0x10
  tGuard := 1
  tPre := 0
  tCsHigh := 0
  dummyByte := 0x00
  validRange := [RangeName.u5.code, RangeName.u10.code, RangeName.u20.code, RangeName.u40.code,
    RangeName.b5.code, RangeName.b10.code, RangeName.b20.code, RangeName.b2v5.code]
  defaultRange := ⟨RangeName.b10.code, by decide⟩
  spiConfigInit := 0x0A84
  bcastPolarity := .direct
  spiMode := 0
  trigLdac := 0x0010
  trigAlarmReset := 0x0100
  trigDefaultsReset := 0x000A
  trigToggle1 := 0x0020
  trigToggle2 := 0x0040
  trigToggle3 := 0x0080

/-- The answer of an exchange (R13): `Ok` with exactly three bytes, or `Err`. An `Ok` of another length cannot be
written down (60_exceptions.md R240, 93_implementation_defined.md U6). -/
inductive XferResult where
  | ok (rx : Bytes3)
  | err
deriving DecidableEq, Repr, Inhabited

/-- The places of a frame transaction (40_framer.md R120) at which the environment may hang for ever
(60_exceptions.md R236): a wait that never ends, or the exchange that is never answered. -/
inductive Stall where
  | pre
  | xfer
  | guard
  | csHigh
deriving DecidableEq, Repr

/-- What the environment does during one frame transaction: its answer to the exchange, and the event it never
ends, if any. -/
structure Turn where
  answer : XferResult
  stall : Option Stall := none
deriving DecidableEq, Repr, Inhabited

/-- FREE VALUE (log 1): what the environment does in a frame transaction for which the state lists no turn, by the
number of such draws so far and the bytes transmitted. "The source gives no law for its answers" (R6). -/
opaque Config.envTurn : Nat → Bytes3 → Turn

end Sys2Proof
end

