-- ==== Sys2Proof/Syntax.lean ====
section
/-! DEFINITION. The operations: one constructor per row of spec/opcode_table.json. Operand fields a row calls
"ignored" are no operands (spec/30_encoding.md R81, 92_eei_decisions.md D26). -/

namespace Sys2Proof

/-- The seventeen host commands of 30_encoding.md R81, then the five rows that are steps of the sequencer and not
host commands (R82, R85 to R88; log 7). Operands are the raw fields: their ranges are checked when the operation
runs (R90, R91), not by the decoder. -/
inductive Instr where
  | writeReg (addr : Byte) (value : Half)
  | readReg (addr : Byte)
  | setRange (ch : Byte) (code : Half)
  | getRange (ch : Byte)
  | setPower (ch : Byte) (enabled : Half)
  | setSync (ch : Byte) (mode : Half)
  | setToggleMode (ch : Byte) (mode : Half)
  | setOutput (ch : Byte) (value : Half)
  | setBcastEn (ch : Byte) (included : Half)
  | triggerLdac
  | triggerAlarmReset
  | triggerDefaultsReset
  | triggerToggle (sel : Half)
  | deviceIdentity
  | isResponding
  | init
  | getLastStatus
  /-- Write frame `00aaaaaa v16` (R85). -/
  | writeFrame (addr : BitVec 6) (value : Half)
  /-- Read-request frame `11aaaaaa 0x00 0x00` (R86). -/
  | readRequestFrame (addr : BitVec 6)
  /-- Read-data frame, transmit side: the dummy byte three times (R87). -/
  | readDataFrameTx (dummy : Byte)
  /-- Read-data frame, receive side (R88). -/
  | readDataFrameRx (status : Byte) (value : Half)
  /-- Response word (R82). -/
  | responseWord (err : BitVec 4) (aux : Byte) (data : Half)
deriving DecidableEq, Repr

/-- The layouts of 30_encoding.md R80 to R88: which table a word is read by depends on where it stands (host port,
first or second frame, received bytes, response port), not on its bits. -/
inductive Layout where
  /-- A host command word, 32 bits (R81). -/
  | command
  /-- A write or read-request frame, 24 bits (R85, R86). -/
  | txFrame
  /-- The second frame of a read, transmit side, 24 bits (R87). -/
  | dataTx
  /-- The second frame of a read, receive side, 24 bits (R88). -/
  | dataRx
  /-- A response word, 32 bits (R82). -/
  | response
deriving DecidableEq, Repr

/-- The layout an operation is written in. -/
def Instr.layout : Instr → Layout
  | .writeReg _ _ => .command
  | .readReg _ => .command
  | .setRange _ _ => .command
  | .getRange _ => .command
  | .setPower _ _ => .command
  | .setSync _ _ => .command
  | .setToggleMode _ _ => .command
  | .setOutput _ _ => .command
  | .setBcastEn _ _ => .command
  | .triggerLdac => .command
  | .triggerAlarmReset => .command
  | .triggerDefaultsReset => .command
  | .triggerToggle _ => .command
  | .deviceIdentity => .command
  | .isResponding => .command
  | .init => .command
  | .getLastStatus => .command
  | .writeFrame _ _ => .txFrame
  | .readRequestFrame _ => .txFrame
  | .readDataFrameTx _ => .dataTx
  | .readDataFrameRx _ _ => .dataRx
  | .responseWord _ _ _ => .response

/-- The number of bits of a layout (R81, R82, R83). -/
def Layout.nbits : Layout → Nat
  | .command => 32
  | .txFrame => 24
  | .dataTx => 24
  | .dataRx => 24
  | .response => 32

/-- Whether an operation is one the host can issue (R81). "`Frame` is not an operation the host can issue by
itself" (40_framer.md R120). -/
def Instr.isCommand (i : Instr) : Bool := i.layout == .command

end Sys2Proof
end

