-- ==== Sys2Proof/Machine/State.lean ====
section
/-! DEFINITION. The state of the block (spec/10_state.md), the transport events (00_scope.md R13), the error codes
(60_exceptions.md R220) and the reset state (10_state.md R43). -/

namespace Sys2Proof.Machine

/-- The two operating phases (10_state.md R24). -/
inductive Phase where
  | uninitialized
  | initialized
deriving DecidableEq, Repr

/-- The sequencer position (10_state.md R27): IDLE, or the operation in progress and the index of its next
transport event, counted over the events it has performed (log 2). -/
inductive Seq where
  | idle
  | running (op : Instr) (next : Nat)
deriving DecidableEq, Repr

/-- A transport event (00_scope.md R13). `cs false` asserts the active-low select line, `cs true` deasserts it. -/
inductive Event where
  | cs (level : Bool)
  | xfer (tx : Bytes3) (answer : XferResult)
  | wait (duration : Nat)
deriving DecidableEq, Repr

/-- The error codes of a response (60_exceptions.md R220). -/
inductive ErrorCode where
  | ok
  | transportError
  | invalidChannel
  | invalidFieldCode
  | invalidAddress
  | invalidOperation
deriving DecidableEq, Repr

/-- The block has no behaviour that stops it: every error of 60_exceptions.md is a response, after which it goes on
(R228, R231). So the model has no fault: nobody raises one, which is safe. -/
inductive Fault where
deriving DecidableEq, Repr

/-- Why a step may have no meaning in the model. -/
inductive Refusal where
  /-- Raised only by an arm of `exec` whose instruction has no meaning yet (none is left); safe, since nothing can
  be proved of such a step. -/
  | notModelled (mnemonic : String)
deriving DecidableEq, Repr

/-- The state. The first group is the block's own (10_state.md R43), then its fixed parameters (00_scope.md R8),
then what stands at its ports: the wire trace (R13), the responses given (30_encoding.md R82), the commands the host
will present (log 5), the reset input (log 6), the environment's coming turns and the number of free values drawn
for it (log 1). -/
structure State where
  /-- The range shadow cache `RC[0..3]` (10_state.md R20). -/
  rc : Vector Half 4
  /-- `phase` (R24). -/
  phase : Phase
  /-- `cs_n`: `true` is deasserted, high (R25). -/
  csN : Bool
  /-- `last_status` (R26). -/
  lastStatus : Byte
  /-- `last_status_valid` (R26). -/
  lastStatusValid : Bool
  /-- `seq` (R27). -/
  seq : Seq
  /-- `busy` (R28). -/
  busy : Bool
  /-- The implementation parameters (00_scope.md R8). -/
  cfg : Config
  /-- The wire trace, oldest event first (00_scope.md R13). -/
  trace : List Event
  /-- The response words given, oldest first. -/
  responses : List Word
  /-- The command words the host has still to present, next first. -/
  host : List Word
  /-- The reset input `rst` (70_reset_and_hazards.md R260). -/
  rst : Bool
  /-- The environment's conduct in the coming frame transactions, next first. -/
  env : List Turn
  /-- How many free values `Config.envTurn` has given. -/
  draws : Nat
deriving DecidableEq, Repr

/-- The state after block reset of an instance with parameters `c` (10_state.md R43). -/
def State.resetWith (c : Config) : State where
  rc := #v[0x0000, 0x0000, 0x0000, 0x0000]
  phase := .uninitialized
  csN := true
  lastStatus := 0x00
  lastStatusValid := false
  seq := .idle
  busy := false
  cfg := c
  trace := []
  responses := []
  host := []
  rst := false
  env := []
  draws := 0

/-- The machine right after reset: R43, with the reference instantiation P0 for the parameters (PRESUMED, log 3). -/
def State.reset : State := State.resetWith Config.p0

end Sys2Proof.Machine
end

