-- ==== Sys2Proof/Machine/Flags.lean ====
section
/-! DEFINITION. The status bits of spec/10_state.md R29: who writes them, and the word in which the host sees them. The
block has no arithmetic condition codes (R29). -/

namespace Sys2Proof.Machine

/-- The bit of `phase` (10_state.md R24): Uninitialized 0, Initialized 1. -/
def phaseBit : Phase → Bool
  | .uninitialized => false
  | .initialized => true

/-- The `data` field of GET_LAST_STATUS (44_identity_init.md R206):
`zext_16(phase) << 1 | zext_16(last_status_valid)`. -/
def statusData (p : Phase) (valid : Bool) : Half :=
  ((BitVec.ofBool (phaseBit p)).setWidth 16 <<< 1) ||| (BitVec.ofBool valid).setWidth 16

/-- A successful read transaction overwrites `last_status` and sets its valid bit (10_state.md R26). -/
def State.latchStatus (b : Byte) (s : State) : State := { s with lastStatus := b, lastStatusValid := true }

/-- INIT completing with OK sets `phase` (10_state.md R24). -/
def State.setInitialized (s : State) : State := { s with phase := .initialized }

end Sys2Proof.Machine
end

