-- ==== Sys2Proof/WellFormed.lean ====
section
/-! DEFINITION. What makes an operation and a parameter record well formed (spec/30_encoding.md R82; 00_scope.md R9). -/

namespace Sys2Proof

/-- The error code of a response word is one of the six of 60_exceptions.md R220. -/
def Instr.wfErrorCode : Instr → Bool
  | .writeReg _ _ => true
  | .readReg _ => true
  | .setRange _ _ => true
  | .getRange _ => true
  | .setPower _ _ => true
  | .setSync _ _ => true
  | .setToggleMode _ _ => true
  | .setOutput _ _ => true
  | .setBcastEn _ _ => true
  | .triggerLdac => true
  | .triggerAlarmReset => true
  | .triggerDefaultsReset => true
  | .triggerToggle _ => true
  | .deviceIdentity => true
  | .isResponding => true
  | .init => true
  | .getLastStatus => true
  | .writeFrame _ _ => true
  | .readRequestFrame _ => true
  | .readDataFrameTx _ => true
  | .readDataFrameRx _ _ => true
  | .responseWord err _ _ => decide (err.toNat ≤ 5)

/-- "When `err` is not OK, `aux` = 0x00 and `data` = 0x0000" (R82). -/
def Instr.wfErrorFields : Instr → Bool
  | .writeReg _ _ => true
  | .readReg _ => true
  | .setRange _ _ => true
  | .getRange _ => true
  | .setPower _ _ => true
  | .setSync _ _ => true
  | .setToggleMode _ _ => true
  | .setOutput _ _ => true
  | .setBcastEn _ _ => true
  | .triggerLdac => true
  | .triggerAlarmReset => true
  | .triggerDefaultsReset => true
  | .triggerToggle _ => true
  | .deviceIdentity => true
  | .isResponding => true
  | .init => true
  | .getLastStatus => true
  | .writeFrame _ _ => true
  | .readRequestFrame _ => true
  | .readDataFrameTx _ => true
  | .readDataFrameRx _ _ => true
  | .responseWord err aux data => err == 0 || (aux == 0 && data == 0)

/-- An operation the encodings admit. Every operand of a host command is admitted: out-of-range operands are errors
of the operation (R99), not of the encoding. -/
def Instr.wf (i : Instr) : Bool := i.wfErrorCode && i.wfErrorFields

/-- The 31 addresses of R9(c), `VALID_ADDR`. -/
def Config.validAddrs (c : Config) : List Byte :=
  [c.aDeviceId, c.aStatus, c.aSpiConfig, c.aGenConfig, c.aBrdConfig, c.aSyncConfig, c.aToggConfig0, c.aToggConfig1,
    c.aDacPwdwn, c.aDacRangeBase, c.aDacRangeBase + 1, c.aDacRangeBase + 2, c.aDacRangeBase + 3, c.aTrigger,
    c.aBrdcast, c.aDacBase, c.aDacBase + 1, c.aDacBase + 2, c.aDacBase + 3, c.aDacBase + 4, c.aDacBase + 5,
    c.aDacBase + 6, c.aDacBase + 7, c.aDacBase + 8, c.aDacBase + 9, c.aDacBase + 10, c.aDacBase + 11,
    c.aDacBase + 12, c.aDacBase + 13, c.aDacBase + 14, c.aDacBase + 15]

/-- R9(a): every register address is below 0x40. -/
def Config.wfAddrHigh (c : Config) : Bool := c.validAddrs.all fun a => decide (a.toNat < 0x40)

/-- R9(b): the two register groups end below 0x40, so their 8-bit sums do not wrap. -/
def Config.wfGroups (c : Config) : Bool :=
  decide (c.aDacRangeBase.toNat + 3 < 0x40) && decide (c.aDacBase.toNat + 15 < 0x40)

/-- R9(c): the 31 addresses are pairwise distinct. -/
def Config.wfDistinct (c : Config) : Bool := decide c.validAddrs.Nodup

/-- Exactly one bit of a 16-bit value is set. -/
def oneBit (v : Half) : Bool := (List.range 16).any fun k => v == 1#16 <<< k

/-- R9(d): the single-bit trigger payloads have one bit set; the defaults-reset code is a nonzero 4-bit code. -/
def Config.wfTriggers (c : Config) : Bool :=
  oneBit c.trigLdac && oneBit c.trigAlarmReset && oneBit c.trigToggle1 && oneBit c.trigToggle2
    && oneBit c.trigToggle3 && decide (0 < c.trigDefaultsReset.toNat) && decide (c.trigDefaultsReset.toNat < 0x10)

/-- "Constraints every instantiation of rule R8 must meet" (R9). R9(e), `DEFAULT_RANGE` in `VALID_RANGE`, is in the type of
`defaultRange`. -/
def Config.wf (c : Config) : Bool :=
  c.wfAddrHigh && c.wfGroups && c.wfDistinct && c.wfTriggers

end Sys2Proof
end

