-- ==== Sys2Proof/Decode.lean ====
section
/-! DEFINITION. The decoder (total; `none` where no row matches, spec/30_encoding.md R99) and the encoder, one pair
for each layout of R81, R82 and R85 to R88. A 24-bit frame is one number, its first byte in bits 23 to 16. -/

namespace Sys2Proof

/-- `cmd[31:24]`, the operation code (R81). -/
def cmdOp (w : Word) : Byte := w.extractLsb' 24 8

/-- `cmd[23:16]`, the operand `a` (R81). -/
def cmdA (w : Word) : Byte := w.extractLsb' 16 8

/-- `cmd[15:0]`, the operand `b` (R81). -/
def cmdB (w : Word) : Half := w.extractLsb' 0 16

/-- The trigger kinds of `op` 0x20, told apart by `a` (R81); `a > 3` matches no row (R99). -/
def decodeTrigger (a : Byte) (b : Half) : Option Instr :=
  match a.toNat with
  | 0x00 => some .triggerLdac
  | 0x01 => some .triggerAlarmReset
  | 0x02 => some .triggerDefaultsReset
  | 0x03 => some (.triggerToggle b)
  | _ => none

/-- A host command word by the table of R81; `none` is the `InvalidOperation` of R99. -/
def decodeCommand (w : Word) : Option Instr :=
  match (cmdOp w).toNat with
  | 0x01 => some (.writeReg (cmdA w) (cmdB w))
  | 0x02 => some (.readReg (cmdA w))
  | 0x10 => some (.setRange (cmdA w) (cmdB w))
  | 0x11 => some (.getRange (cmdA w))
  | 0x12 => some (.setPower (cmdA w) (cmdB w))
  | 0x13 => some (.setSync (cmdA w) (cmdB w))
  | 0x14 => some (.setToggleMode (cmdA w) (cmdB w))
  | 0x15 => some (.setOutput (cmdA w) (cmdB w))
  | 0x16 => some (.setBcastEn (cmdA w) (cmdB w))
  | 0x20 => decodeTrigger (cmdA w) (cmdB w)
  | 0x30 => some .deviceIdentity
  | 0x31 => some .isResponding
  | 0x40 => some .init
  | 0x50 => some .getLastStatus
  | _ => none

/-- Whether a word fits in 24 bits. -/
def fits24 (w : Word) : Bool := w.extractLsb' 24 8 == 0

/-- A write frame (R85) or a read-request frame (R86); the block transmits no other first byte and no read request
with nonzero payload (R84, R100). -/
def decodeTxFrame (w : Word) : Option Instr :=
  if fits24 w then
    match (w.extractLsb' 22 2).toNat with
    | 0b00 => some (.writeFrame (w.extractLsb' 16 6) (cmdB w))
    | 0b11 => if cmdB w = 0 then some (.readRequestFrame (w.extractLsb' 16 6)) else none
    | _ => none
  else none

/-- The second frame of a read, transmit side: one byte three times (R87). -/
def decodeDataTx (w : Word) : Option Instr :=
  if fits24 w ∧ w.extractLsb' 8 8 = cmdA w ∧ w.extractLsb' 0 8 = cmdA w then
    some (.readDataFrameTx (cmdA w))
  else none

/-- The second frame of a read, receive side (R88): any 24 bits. -/
def decodeDataRx (w : Word) : Option Instr :=
  if fits24 w then some (.readDataFrameRx (cmdA w) (cmdB w)) else none

/-- A response word (R82); bits 27 to 24 are zero, and the fields are as the rule allows. -/
def decodeResponse (w : Word) : Option Instr :=
  if w.extractLsb' 24 4 = 0 then
    if (Instr.responseWord (w.extractLsb' 28 4) (cmdA w) (cmdB w)).wf then
      some (.responseWord (w.extractLsb' 28 4) (cmdA w) (cmdB w))
    else none
  else none

/-- The decoder: a word in the place its layout names. -/
def decode (l : Layout) (w : Word) : Option Instr :=
  match l with
  | .command => decodeCommand w
  | .txFrame => decodeTxFrame w
  | .dataTx => decodeDataTx w
  | .dataRx => decodeDataRx w
  | .response => decodeResponse w

/-- The layout a bare word of the opcode table is read by, since a table row has no place (DESIGN CHOICE, log 8):
32 bits are a host command if they are one, else a response word if they are one, else a (refused) host command;
24 bits are the first of write or read-request frame, read-data frame to send, read-data frame received that fits. -/
def tableLayout (nbits : Nat) (w : Word) : Layout :=
  if nbits = 24 then
    if (decodeTxFrame w).isSome then .txFrame
    else if (decodeDataTx w).isSome then .dataTx
    else .dataRx
  else if (decodeCommand w).isSome then .command
  else if (decodeResponse w).isSome then .response
  else .command

/-- The instruction the decoder reads from an opcode-table word of `nbits` bits. -/
def decodeTableWord (nbits w : Nat) : Option Instr :=
  if nbits = 32 ∨ nbits = 24 then
    decode (tableLayout nbits (BitVec.ofNat 32 w)) (BitVec.ofNat 32 w)
  else none

/-- `op ++ a ++ b` (R81). -/
def commandWord (op a : Byte) (b : Half) : Word := op ++ a ++ b

/-- The response word `err 0000 aux data` (R82). -/
def responseBits (err : BitVec 4) (aux : Byte) (data : Half) : Word := err ++ 0#4 ++ aux ++ data

/-- The encoder. Ignored operands encode as zero (R102); a frame stands in the low 24 bits. -/
def encode : Instr → Word
  | .writeReg addr value => commandWord 0x01 addr value
  | .readReg addr => commandWord 0x02 addr 0
  | .setRange ch code => commandWord 0x10 ch code
  | .getRange ch => commandWord 0x11 ch 0
  | .setPower ch enabled => commandWord 0x12 ch enabled
  | .setSync ch mode => commandWord 0x13 ch mode
  | .setToggleMode ch mode => commandWord 0x14 ch mode
  | .setOutput ch value => commandWord 0x15 ch value
  | .setBcastEn ch included => commandWord 0x16 ch included
  | .triggerLdac => commandWord 0x20 0x00 0
  | .triggerAlarmReset => commandWord 0x20 0x01 0
  | .triggerDefaultsReset => commandWord 0x20 0x02 0
  | .triggerToggle sel => commandWord 0x20 0x03 sel
  | .deviceIdentity => commandWord 0x30 0 0
  | .isResponding => commandWord 0x31 0 0
  | .init => commandWord 0x40 0 0
  | .getLastStatus => commandWord 0x50 0 0
  | .writeFrame addr value => 0#8 ++ 0b00#2 ++ addr ++ value
  | .readRequestFrame addr => 0#8 ++ 0b11#2 ++ addr ++ 0#16
  | .readDataFrameTx d => 0#8 ++ d ++ d ++ d
  | .readDataFrameRx status value => 0#8 ++ status ++ value
  | .responseWord err aux data => responseBits err aux data

end Sys2Proof
end

