-- ==== Sys2Proof/Machine/Operands.lean ====
section
/-! DEFINITION. Every operand form: the checks of spec/30_encoding.md R89 to R91, the packed register fields of R92 to
R97, the effective addresses of 20_memory.md R60, the wire frames of R85 to R88 and the response word of R82. -/

namespace Sys2Proof.Machine

/-- A toggle mode, a closed enumeration (R101): the four transformations of R94 in the order of their codes. -/
inductive ToggleMode where
  | clearBoth
  | lowOnly
  | highOnly
  | setBoth
deriving DecidableEq, Repr

/-- A toggle-trigger selector other than no-toggle (43_output_trigger.md R185). -/
inductive ToggleSelector where
  | one
  | two
  | three
deriving DecidableEq, Repr

/-! ### Operand decoding (R89 to R91) -/

/-- A channel operand: `a` at most 15 (R90). -/
def channelOf (a : Byte) : Option (Fin 16) :=
  if h : a.toNat < 16 then some ⟨a.toNat, h⟩ else none

/-- A register address operand: `a` in `VALID_ADDR` (40_framer.md R122, R124). -/
def validAddr (c : Config) (a : Byte) : Bool := c.validAddrs.contains a

/-- A range code operand: `b` in `VALID_RANGE`, hence at most 15 (R91); from here on it is a member of the closed type of
R101. -/
def rangeCodeOf (c : Config) (b : Half) : Option (RangeCode c.validRange) :=
  if b.toNat ≤ 15 then
    if h : b.setWidth 4 ∈ c.validRange then some ⟨b.setWidth 4, h⟩ else none
  else none

/-- A two-valued operand: 1 or 0 (R91; enabled, Sync, included for 1). -/
def bitOf (b : Half) : Option Bool :=
  match b.toNat with
  | 0 => some false
  | 1 => some true
  | _ => none

/-- A toggle mode operand: `b` at most 3 (R91). -/
def toggleModeOf (b : Half) : Option ToggleMode :=
  match b.toNat with
  | 0 => some .clearBoth
  | 1 => some .lowOnly
  | 2 => some .highOnly
  | 3 => some .setBoth
  | _ => none

/-- A toggle selector operand: 1 to 3 (R91, 43_output_trigger.md R185). -/
def selectorOf (b : Half) : Option ToggleSelector :=
  match b.toNat with
  | 1 => some .one
  | 2 => some .two
  | 3 => some .three
  | _ => none

/-! ### Packed register fields (R92 to R97) -/

/-- `range_index` (R92). -/
def rangeIndex (ch : Fin 16) : Fin 4 := ⟨ch.val / 4, by omega⟩

/-- `range_shift` (R92, 41_range.md R142). -/
def rangeShift (ch : Fin 16) : Nat := 4 * (ch.val % 4)

/-- `range_mask` (R92). -/
def rangeMask (ch : Fin 16) : Half := 0x000F#16 <<< rangeShift ch

/-- `range_encode` (R92): merge a code into a range word. It is defined "for all 16 codes, valid or not". -/
def rangeEncode (w : Half) (ch : Fin 16) (code : BitVec 4) : Half :=
  (w &&& ~~~ rangeMask ch) ||| (code.setWidth 16 <<< rangeShift ch)

/-- `range_decode` (R92): the channel's field of a range word, the raw result of R101. -/
def rangeDecode (w : Half) (ch : Fin 16) : RawRange := (w >>> rangeShift ch).setWidth 4

/-- `bit_mask` (R93). -/
def bitMask (ch : Fin 16) : Half := 0x0001#16 <<< ch.val

/-- `bit_set` (R93). -/
def bitSet (v : Half) (ch : Fin 16) : Half := v ||| bitMask ch

/-- `bit_clear` (R93). -/
def bitClear (v : Half) (ch : Fin 16) : Half := v &&& ~~~ bitMask ch

/-- The offset of a channel's toggle field (R94). -/
def toggleOffset (ch : Fin 16) : Nat := 2 * (ch.val % 8)

/-- `toggle_apply` (R94): "must be implemented as an explicit 4-way case". -/
def toggleApply (v : Half) (ch : Fin 16) : ToggleMode → Half
  | .clearBoth => v &&& ~~~ (0x0003#16 <<< toggleOffset ch)
  | .lowOnly => (v &&& ~~~ (0x0002#16 <<< toggleOffset ch)) ||| (0x0001#16 <<< toggleOffset ch)
  | .highOnly => (v &&& ~~~ (0x0001#16 <<< toggleOffset ch)) ||| (0x0002#16 <<< toggleOffset ch)
  | .setBoth => v ||| (0x0003#16 <<< toggleOffset ch)

/-- The power-down word for SET_POWER (42_bitmask.md R161): "bit semantics are inverted". -/
def powerApply (ch : Fin 16) (enabled : Bool) (v : Half) : Half :=
  if enabled then bitClear v ch else bitSet v ch

/-- The sync word for SET_SYNC (42_bitmask.md R162). -/
def syncApply (ch : Fin 16) (sync : Bool) (v : Half) : Half :=
  if sync then bitSet v ch else bitClear v ch

/-- The broadcast word for SET_BCAST_EN (42_bitmask.md R163): `inverted` exchanges set and clear. -/
def broadcastApply (p : Polarity) (ch : Fin 16) (included : Bool) (v : Half) : Half :=
  match p with
  | .direct => if included then bitSet v ch else bitClear v ch
  | .inverted => if included then bitClear v ch else bitSet v ch

/-- `family(v) = v[15:2]` (R96). -/
def family (v : Half) : BitVec 14 := v.extractLsb' 2 14

/-- `version(v) = v[1:0]` (R96). -/
def version (v : Half) : BitVec 2 := v.extractLsb' 0 2

/-- The responding predicate (R97). -/
def responding (v : Half) : Bool := v != 0x0000#16 && v != 0xFFFF#16

/-! ### Effective addresses (20_memory.md R60) -/

/-- Base plus channel: the output register of a channel. -/
def outputAddr (c : Config) (ch : Fin 16) : Byte := c.aDacBase + BitVec.ofNat 8 ch.val

/-- Base plus channel group: the range register of word `i`. -/
def rangeAddr (c : Config) (i : Fin 4) : Byte := c.aDacRangeBase + BitVec.ofNat 8 i.val

/-- Select by channel half: the toggle register of a channel (10_state.md R35). -/
def toggleAddr (c : Config) (ch : Fin 16) : Byte :=
  if ch.val < 8 then c.aToggConfig1 else c.aToggConfig0

/-- `TRIG_TOGGLE[sel]` (00_scope.md R8). -/
def togglePayload (c : Config) : ToggleSelector → Half
  | .one => c.trigToggle1
  | .two => c.trigToggle2
  | .three => c.trigToggle3

/-! ### Wire frames (R85 to R88), most significant byte first (20_memory.md R52) -/

/-- `v[15:8]`. -/
def highByte (v : Half) : Byte := v.extractLsb' 8 8

/-- `v[7:0]`. -/
def lowByte (v : Half) : Byte := v.extractLsb' 0 8

/-- Write frame (R85). -/
def writeTx (addr : Byte) (v : Half) : Bytes3 := ⟨addr, highByte v, lowByte v⟩

/-- `READ_MASK` (00_scope.md R7). -/
def readMask : Byte := 0xC0

/-- Read-request frame (R86). -/
def readRequestTx (addr : Byte) : Bytes3 := ⟨addr ||| readMask, 0x00, 0x00⟩

/-- Read-data frame, transmit side (R87). -/
def readDataTx (dummy : Byte) : Bytes3 := ⟨dummy, dummy, dummy⟩

/-- The value of a read response (R88): `(zext_16(rx[1]) << 8) | zext_16(rx[2])`. -/
def rxValue (rx : Bytes3) : Half := (rx.b1.setWidth 16 <<< 8) ||| rx.b2.setWidth 16

/-- The received bytes of a read response with this status byte and value (R88). -/
def rxBytes (status : Byte) (value : Half) : Bytes3 := ⟨status, highByte value, lowByte value⟩

/-! ### Responses (R82, 60_exceptions.md R220) -/

/-- The number of an error code (60_exceptions.md R220). -/
def errorBits : ErrorCode → BitVec 4
  | .ok => 0
  | .transportError => 1
  | .invalidChannel => 2
  | .invalidFieldCode => 3
  | .invalidAddress => 4
  | .invalidOperation => 5

/-- The response word with an error code and its two fields (R82). -/
def responseOf (e : ErrorCode) (aux : Byte) (data : Half) : Word := responseBits (errorBits e) aux data

end Sys2Proof.Machine
end

