-- ==== Sys2Proof/Machine/Ops.lean ====
section
/-! DEFINITION. The shared operations: the range cache, the transport events, the frame, write and read transactions of
spec/40_framer.md, the read-modify-write of 42_bitmask.md R160, `raise` and the response of 60_exceptions.md R228, and
block reset. -/

namespace Sys2Proof.Machine

/-! ### Updates of the state -/

/-- `RC[i]` (10_state.md R20). -/
def State.readRC (s : State) (i : Fin 4) : Half := s.rc[i]

/-- `RC[i] <- w` (10_state.md R20). -/
def State.writeRC (i : Fin 4) (w : Half) (s : State) : State := { s with rc := s.rc.set i w }

/-- The sequencer advances by one per event (10_state.md R27). -/
def Seq.advance : Seq → Seq
  | .idle => .idle
  | .running i n => .running i (n + 1)

/-- Perform a transport event: it joins the wire trace (00_scope.md R13) and the sequencer advances. -/
def State.emit (e : Event) (s : State) : State := { s with trace := s.trace ++ [e], seq := s.seq.advance }

/-- `CS(level)`: drive the select line (10_state.md R25). -/
def State.driveCs (level : Bool) (s : State) : State := { s.emit (.cs level) with csN := level }

/-- What the environment does in the next frame transaction with transmitted bytes `tx`: the turn listed for it,
else a free value (log 1). -/
def State.nextTurn (tx : Bytes3) (s : State) : Turn :=
  match s.env with
  | t :: _ => t
  | [] => Config.envTurn s.draws tx

/-- The next frame transaction has begun: its turn is used, or a free value is drawn. -/
def State.useTurn (s : State) : State :=
  { s with env := s.env.tail, draws := s.draws + (if s.env.isEmpty then 1 else 0) }

/-- A command is accepted (10_state.md R27, R28). -/
def State.accept (i : Instr) (s : State) : State := { s with seq := .running i 0, busy := true }

/-- The sequencer returns to IDLE and `busy` falls (10_state.md R27, R28). -/
def State.settle (s : State) : State := { s with seq := .idle, busy := false }

/-- Give a response word; "`seq` returns to `IDLE` when the response is given" (10_state.md R27). -/
def State.respond (w : Word) (s : State) : State := { s with responses := s.responses ++ [w] }.settle

/-- Block reset (70_reset_and_hazards.md R260, R261): every piece of block state to R43's value, whatever is in
progress; no response, no event, and the wire trace starts empty. Parameters and what the outside has still to give
are not the block's. -/
def State.blockReset (s : State) : State :=
  { State.resetWith s.cfg with responses := s.responses, host := s.host, env := s.env, draws := s.draws }

/-! ### Runs: how the pseudocode of an operation goes on -/

/-- How a piece of an operation ended: with a result; with `raise` (60_exceptions.md R228); or not at all, because
the environment never ended an event (R236). -/
inductive Run (α : Type) where
  | done (a : α) (s : State)
  | raised (e : ErrorCode) (s : State)
  | hung (s : State)

/-- Go on with the next line; "nothing after [a raise] in the pseudocode runs" (00_scope.md R12). -/
def Run.bind {α β : Type} (r : Run α) (f : α → State → Run β) : Run β :=
  match r with
  | .done a s => f a s
  | .raised e s => .raised e s
  | .hung s => .hung s

/-- A checked operand, or `raise e` with nothing changed (60_exceptions.md R229). -/
def require {α : Type} (e : ErrorCode) (o : Option α) (s : State) : Run α :=
  match o with
  | some a => .done a s
  | none => .raised e s

/-! ### Taking an exception and giving a response -/

/-- What `raise e` leaves (60_exceptions.md R228): the response carries the code and zero fields, the sequencer
returns to IDLE, `busy` falls, nothing is saved. There is no return operation (R231). -/
def State.raise (e : ErrorCode) (s : State) : State := s.respond (responseOf e 0 0)

/-- The end of a host command: `respond(aux, data)`, the error response, or no response for ever. -/
def Run.conclude (r : Run (Byte × Half)) : State :=
  match r with
  | .done a s => s.respond (responseOf .ok a.1 a.2)
  | .raised e s => s.raise e
  | .hung s => s

/-- A host command: accept, run its body, answer. Every outcome is a next state. -/
def operate (i : Instr) (body : State → Run (Byte × Half)) (s : State) : Host.Outcome State Fault Refusal :=
  .next (body (s.accept i)).conclude

/-- The end of a step of the sequencer that is no host command (log 7): it gives no response. -/
def Run.settled {α : Type} (r : Run α) : State :=
  match r with
  | .done _ s => s.settle
  | .raised _ s => s.settle
  | .hung s => s

/-- A step of the sequencer that is no host command (log 7). -/
def sequence {α : Type} (i : Instr) (body : State → Run α) (s : State) : Host.Outcome State Fault Refusal :=
  .next (body (s.accept i)).settled

/-! ### Transport (00_scope.md R13, 40_framer.md R120 to R124) -/

/-- `WAIT(d)`, which the environment may never end; "a `WAIT(0)` is not performed and not recorded" (R13). -/
def wait (d : Nat) (hangs : Bool) (s : State) : Run Unit :=
  if d = 0 then .done () s
  else if hangs then .hung s
  else .done () (s.emit (.wait d))

/-- `XFER(tx)`, which the environment answers as its turn says or never. -/
def xfer (tx : Bytes3) (turn : Turn) (s : State) : Run XferResult :=
  if turn.stall = some .xfer then .hung s
  else .done turn.answer (s.emit (.xfer tx turn.answer))

/-- The events of `Frame(tx)` under one turn of the environment (R120). The guard and the deassertion are performed
on both answers. -/
def frameEventsRun (tx : Bytes3) (turn : Turn) (s : State) : Run XferResult :=
  (wait s.cfg.tPre (turn.stall = some .pre) (s.driveCs false)).bind fun _ s =>
  (xfer tx turn s).bind fun r s =>
  (wait s.cfg.tGuard (turn.stall = some .guard) s).bind fun _ s =>
  (wait s.cfg.tCsHigh (turn.stall = some .csHigh) (s.driveCs true)).bind fun _ s =>
  .done r s

/-- `Frame(tx)` (R120). -/
def frame (tx : Bytes3) (s : State) : Run XferResult := frameEventsRun tx (s.nextTurn tx) s.useTurn

/-- `if r = Err: raise TransportError` (R121, R123). -/
def frameOk (tx : Bytes3) (s : State) : Run Bytes3 :=
  (frame tx s).bind fun r s =>
  match r with
  | .ok rx => .done rx s
  | .err => .raised .transportError s

/-- `MemWrite(addr, 2, v)` (R121): the received bytes are discarded. -/
def memWrite (addr : Byte) (v : Half) (s : State) : Run Unit :=
  (frameOk (writeTx addr v) s).bind fun _ s => .done () s

/-- The end of `MemRead` (R123, 30_encoding.md R88): the status byte is latched, status and value are the result. -/
def receiveData (rx : Bytes3) (s : State) : Run (Byte × Half) := .done (rx.b0, rxValue rx) (s.latchStatus rx.b0)

/-- `MemRead(addr, 2)` (R123). -/
def memRead (addr : Byte) (s : State) : Run (Byte × Half) :=
  (frameOk (readRequestTx addr) s).bind fun _ s =>
  (frameOk (readDataTx s.cfg.dummyByte) s).bind fun rx s =>
  receiveData rx s

/-- `RMW(addr, f)` (42_bitmask.md R160): the write is always performed. -/
def rmw (addr : Byte) (f : Half → Half) (s : State) : Run Unit :=
  (memRead addr s).bind fun r s => memWrite addr (f r.2) s

/-- The body of SET_RANGE after its checks (41_range.md R141), which INIT repeats (44_identity_init.md R204): the
cache is updated "only after the write succeeded". -/
def storeRange {valid : List (BitVec 4)} (ch : Fin 16) (code : RangeCode valid) (s : State) : Run Unit :=
  (memWrite (rangeAddr s.cfg (rangeIndex ch)) (rangeEncode (s.readRC (rangeIndex ch)) ch code.code) s).bind fun _ s' =>
  .done () (s'.writeRC (rangeIndex ch) (rangeEncode (s.readRC (rangeIndex ch)) ch code.code))

/-- `respond(0, 0)` (00_scope.md R12). -/
def respondZero (s : State) : Run (Byte × Half) := .done (0, 0) s

end Sys2Proof.Machine
end

