-- ==== Sys2Proof/Machine/Bitmask.lean ====
section
/-! DEFINITION. The read-modify-write commands (spec/42_bitmask.md). -/

namespace Sys2Proof.Machine

/-- SET_POWER (42_bitmask.md R161). -/
def execSetPower (ch : Byte) (enabled : Half) (s : State) : Host.Outcome State Fault Refusal :=
  operate (.setPower ch enabled) (s := s) fun s =>
  (require .invalidChannel (channelOf ch) s).bind fun k s =>
  (require .invalidFieldCode (bitOf enabled) s).bind fun b s =>
  (rmw s.cfg.aDacPwdwn (powerApply k b) s).bind fun _ s =>
  respondZero s

/-- SET_SYNC (42_bitmask.md R162). -/
def execSetSync (ch : Byte) (mode : Half) (s : State) : Host.Outcome State Fault Refusal :=
  operate (.setSync ch mode) (s := s) fun s =>
  (require .invalidChannel (channelOf ch) s).bind fun k s =>
  (require .invalidFieldCode (bitOf mode) s).bind fun b s =>
  (rmw s.cfg.aSyncConfig (syncApply k b) s).bind fun _ s =>
  respondZero s

/-- SET_BCAST_EN (42_bitmask.md R163), with the polarity parameter. -/
def execSetBcastEn (ch : Byte) (included : Half) (s : State) : Host.Outcome State Fault Refusal :=
  operate (.setBcastEn ch included) (s := s) fun s =>
  (require .invalidChannel (channelOf ch) s).bind fun k s =>
  (require .invalidFieldCode (bitOf included) s).bind fun b s =>
  (rmw s.cfg.aBrdConfig (broadcastApply s.cfg.bcastPolarity k b) s).bind fun _ s =>
  respondZero s

/-- SET_TOGGLE_MODE (42_bitmask.md R164). -/
def execSetToggleMode (ch : Byte) (mode : Half) (s : State) : Host.Outcome State Fault Refusal :=
  operate (.setToggleMode ch mode) (s := s) fun s =>
  (require .invalidChannel (channelOf ch) s).bind fun k s =>
  (require .invalidFieldCode (toggleModeOf mode) s).bind fun m s =>
  (rmw (toggleAddr s.cfg k) (fun v => toggleApply v k m) s).bind fun _ s =>
  respondZero s

end Sys2Proof.Machine
end

