-- ==== Sys2Proof/Machine/Framer.lean ====
section
/-! DEFINITION. The Transport Framer's host commands, WRITE_REG and READ_REG (spec/40_framer.md). -/

namespace Sys2Proof.Machine

/-- WRITE_REG (40_framer.md R122). -/
def execWriteReg (addr : Byte) (value : Half) (s : State) : Host.Outcome State Fault Refusal :=
  operate (.writeReg addr value) (s := s) fun s =>
  (require .invalidAddress (if validAddr s.cfg addr then some addr else none) s).bind fun addr s =>
  (memWrite addr value s).bind fun _ s =>
  respondZero s

/-- READ_REG (40_framer.md R124): the status byte is the `aux` field. -/
def execReadReg (addr : Byte) (s : State) : Host.Outcome State Fault Refusal :=
  operate (.readReg addr) (s := s) fun s =>
  (require .invalidAddress (if validAddr s.cfg addr then some addr else none) s).bind fun addr s =>
  (memRead addr s).bind fun r s =>
  .done (r.1, r.2) s

end Sys2Proof.Machine
end

