-- ==== Sys2Proof/Machine/Frames.lean ====
section
/-! DEFINITION. The opcode-table rows that are steps of the sequencer and not host commands (spec/30_encoding.md R82, R85
to R88; 40_framer.md R120). Each is one step every host command is built from, run by itself (log 7). -/

namespace Sys2Proof.Machine

/-- WRITE_FRAME (30_encoding.md R85): one frame transaction (40_framer.md R120); the received bytes are discarded. -/
def execWriteFrame (addr : BitVec 6) (value : Half) (s : State) : Host.Outcome State Fault Refusal :=
  sequence (.writeFrame addr value) (s := s) fun s => frame (writeTx (0b00#2 ++ addr) value) s

/-- READ_REQUEST_FRAME (30_encoding.md R86): one frame transaction; the received bytes are discarded. -/
def execReadRequestFrame (addr : BitVec 6) (s : State) : Host.Outcome State Fault Refusal :=
  sequence (.readRequestFrame addr) (s := s) fun s => frame (readRequestTx (0b00#2 ++ addr)) s

/-- READ_DATA_FRAME_TX (30_encoding.md R87): one frame transaction. What its received bytes do is the row
READ_DATA_FRAME_RX. -/
def execReadDataFrameTx (dummy : Byte) (s : State) : Host.Outcome State Fault Refusal :=
  sequence (.readDataFrameTx dummy) (s := s) fun s => frame (readDataTx dummy) s

/-- READ_DATA_FRAME_RX (30_encoding.md R88, 40_framer.md R123): the status byte is latched. The value is the result
of the read transaction it ends and is kept nowhere (10_state.md R39; log 7). -/
def execReadDataFrameRx (status : Byte) (value : Half) (s : State) : Host.Outcome State Fault Refusal :=
  sequence (.readDataFrameRx status value) (s := s) fun s => receiveData (rxBytes status value) s

/-- RESPONSE_WORD (30_encoding.md R82, 60_exceptions.md R228): the response is given and the sequencer returns to
IDLE. -/
def execResponseWord (err : BitVec 4) (aux : Byte) (data : Half) (s : State) : Host.Outcome State Fault Refusal :=
  .next ((s.accept (.responseWord err aux data)).respond (responseBits err aux data))

end Sys2Proof.Machine
end

