-- ==== Sys2Proof/Machine/Identity.lean ====
section
/-! DEFINITION. DEVICE_IDENTITY, IS_RESPONDING, INIT and GET_LAST_STATUS (spec/44_identity_init.md). -/

namespace Sys2Proof.Machine

/-- DEVICE_IDENTITY (44_identity_init.md R200): `aux` is the version, `data` the family code. -/
def execDeviceIdentity (s : State) : Host.Outcome State Fault Refusal :=
  operate .deviceIdentity (s := s) fun s =>
  (memRead s.cfg.aDeviceId s).bind fun r s =>
  .done ((version r.2).setWidth 8, (family r.2).setWidth 16) s

/-- IS_RESPONDING (44_identity_init.md R202): a transport fault is an error, not "not responding". -/
def execIsResponding (s : State) : Host.Outcome State Fault Refusal :=
  operate .isResponding (s := s) fun s =>
  (memRead s.cfg.aDeviceId s).bind fun r s =>
  .done (0, if responding r.2 then 1 else 0) s

/-- The channels in ascending order. -/
def allChannels : List (Fin 16) := [0, 1, 2, 3, 4, 5, 6, 7, 8, 9, 10, 11, 12, 13, 14, 15]

/-- The loop of INIT (44_identity_init.md R204): the default range for each listed channel in turn. -/
def initRanges : List (Fin 16) → State → Run Unit
  | [], s => .done () s
  | ch :: rest, s => (storeRange ch s.cfg.defaultRange s).bind fun _ s => initRanges rest s

/-- INIT (44_identity_init.md R204): the SPI configuration, the ranges, then the phase. -/
def execInit (s : State) : Host.Outcome State Fault Refusal :=
  operate .init (s := s) fun s =>
  (memWrite s.cfg.aSpiConfig s.cfg.spiConfigInit s).bind fun _ s =>
  (initRanges allChannels s).bind fun _ s =>
  respondZero s.setInitialized

/-- GET_LAST_STATUS (44_identity_init.md R206): no frame. -/
def execGetLastStatus (s : State) : Host.Outcome State Fault Refusal :=
  operate .getLastStatus (s := s) fun s =>
  .done (s.lastStatus, statusData s.phase s.lastStatusValid) s

end Sys2Proof.Machine
end

