-- ==== Sys2Proof/Machine/Output.lean ====
section
/-! DEFINITION. SET_OUTPUT and the four triggers (spec/43_output_trigger.md): one write frame each. -/

namespace Sys2Proof.Machine

/-- SET_OUTPUT (43_output_trigger.md R180): the value is passed through unchanged. -/
def execSetOutput (ch : Byte) (value : Half) (s : State) : Host.Outcome State Fault Refusal :=
  operate (.setOutput ch value) (s := s) fun s =>
  (require .invalidChannel (channelOf ch) s).bind fun k s =>
  (memWrite (outputAddr s.cfg k) value s).bind fun _ s =>
  respondZero s

/-- TRIGGER_LDAC (43_output_trigger.md R182). -/
def execTriggerLdac (s : State) : Host.Outcome State Fault Refusal :=
  operate .triggerLdac (s := s) fun s =>
  (memWrite s.cfg.aTrigger s.cfg.trigLdac s).bind fun _ s =>
  respondZero s

/-- TRIGGER_ALARM_RESET (43_output_trigger.md R183). -/
def execTriggerAlarmReset (s : State) : Host.Outcome State Fault Refusal :=
  operate .triggerAlarmReset (s := s) fun s =>
  (memWrite s.cfg.aTrigger s.cfg.trigAlarmReset s).bind fun _ s =>
  respondZero s

/-- TRIGGER_DEFAULTS_RESET (43_output_trigger.md R184): the cache and the phase stay as they are
(70_reset_and_hazards.md R266). -/
def execTriggerDefaultsReset (s : State) : Host.Outcome State Fault Refusal :=
  operate .triggerDefaultsReset (s := s) fun s =>
  (memWrite s.cfg.aTrigger s.cfg.trigDefaultsReset s).bind fun _ s =>
  respondZero s

/-- TRIGGER_TOGGLE (43_output_trigger.md R185): the no-toggle selector is refused with `InvalidFieldCode`. -/
def execTriggerToggle (sel : Half) (s : State) : Host.Outcome State Fault Refusal :=
  operate (.triggerToggle sel) (s := s) fun s =>
  (require .invalidFieldCode (selectorOf sel) s).bind fun k s =>
  (memWrite s.cfg.aTrigger (togglePayload s.cfg k) s).bind fun _ s =>
  respondZero s

end Sys2Proof.Machine
end

