-- ==== Sys2Proof/Machine/Range.lean ====
section
/-! DEFINITION. SET_RANGE and GET_RANGE (spec/41_range.md). -/

namespace Sys2Proof.Machine

/-- SET_RANGE (41_range.md R141): channel check, code check, write, then cache. -/
def execSetRange (ch : Byte) (code : Half) (s : State) : Host.Outcome State Fault Refusal :=
  operate (.setRange ch code) (s := s) fun s =>
  (require .invalidChannel (channelOf ch) s).bind fun k s =>
  (require .invalidFieldCode (rangeCodeOf s.cfg code) s).bind fun c s =>
  (storeRange k c s).bind fun _ s =>
  respondZero s

/-- GET_RANGE (41_range.md R143): from the cache only, no frame. -/
def execGetRange (ch : Byte) (s : State) : Host.Outcome State Fault Refusal :=
  operate (.getRange ch) (s := s) fun s =>
  (require .invalidChannel (channelOf ch) s).bind fun k s =>
  .done (0, (rangeDecode (s.readRC (rangeIndex k)) k).setWidth 16) s

end Sys2Proof.Machine
end

