-- ==== Sys2Proof/Machine/Dispatch.lean ====
section
/-! DEFINITION. One arm per operation of spec/opcode_table.json, each a call of its meaning. -/

namespace Sys2Proof.Machine

def exec (i : Instr) (s : State) : Host.Outcome State Fault Refusal :=
  match i with
  | .writeReg addr value => Sys2Proof.Machine.execWriteReg addr value s
  | .readReg addr => Sys2Proof.Machine.execReadReg addr s
  | .setRange ch code => Sys2Proof.Machine.execSetRange ch code s
  | .getRange ch => Sys2Proof.Machine.execGetRange ch s
  | .setPower ch enabled => Sys2Proof.Machine.execSetPower ch enabled s
  | .setSync ch mode => Sys2Proof.Machine.execSetSync ch mode s
  | .setToggleMode ch mode => Sys2Proof.Machine.execSetToggleMode ch mode s
  | .setOutput ch value => Sys2Proof.Machine.execSetOutput ch value s
  | .setBcastEn ch included => Sys2Proof.Machine.execSetBcastEn ch included s
  | .triggerLdac => Sys2Proof.Machine.execTriggerLdac s
  | .triggerAlarmReset => Sys2Proof.Machine.execTriggerAlarmReset s
  | .triggerDefaultsReset => Sys2Proof.Machine.execTriggerDefaultsReset s
  | .triggerToggle sel => Sys2Proof.Machine.execTriggerToggle sel s
  | .deviceIdentity => Sys2Proof.Machine.execDeviceIdentity s
  | .isResponding => Sys2Proof.Machine.execIsResponding s
  | .init => Sys2Proof.Machine.execInit s
  | .getLastStatus => Sys2Proof.Machine.execGetLastStatus s
  | .writeFrame addr value => Sys2Proof.Machine.execWriteFrame addr value s
  | .readRequestFrame addr => Sys2Proof.Machine.execReadRequestFrame addr s
  | .readDataFrameTx dummy => Sys2Proof.Machine.execReadDataFrameTx dummy s
  | .readDataFrameRx status value => Sys2Proof.Machine.execReadDataFrameRx status value s
  | .responseWord err aux data => Sys2Proof.Machine.execResponseWord err aux data s

end Sys2Proof.Machine
end

