-- ==== Sys2Proof/Machine/Port.lean ====
section
/-! DEFINITION. How the block takes its next operation: the host port (spec/30_encoding.md R81, R99; 10_state.md R28) and
the sequencer position (R27). -/

namespace Sys2Proof.Machine

/-- What the block does next. -/
inductive Next where
  /-- It goes into block reset (70_reset_and_hazards.md R260). -/
  | reset
  /-- It waits: for a command (10_state.md R43), or for an event that has not ended (60_exceptions.md R236). -/
  | stay
  /-- It runs an operation from its first event. -/
  | run (i : Instr) (s : State)
  /-- It has taken a command word that matches no operation (30_encoding.md R99). -/
  | invalid (s : State)
deriving DecidableEq, Repr

/-- A busy block accepts no command (10_state.md R28). It stands at the first event of its operation, or at an event
the environment has not ended. -/
def nextOfSeq (q : Seq) (s : State) : Next :=
  match q with
  | .running i 0 => .run i s
  | .running _ (_ + 1) => .stay
  | .idle => .stay

/-- An idle block takes the command word presented to it, if there is one (30_encoding.md R81). -/
def nextOfHost (ws : List Word) (s : State) : Next :=
  match ws with
  | [] => .stay
  | w :: rest =>
    match decode .command w with
    | some i => .run i { s with host := rest }
    | none => .invalid { s with host := rest }

/-- What the block does next: the reset input first, also while busy (70_reset_and_hazards.md R261). -/
def nextOf (s : State) : Next :=
  if s.rst then .reset
  else if s.busy then nextOfSeq s.seq s
  else nextOfHost s.host s

/-- A command word that matches no operation: "`InvalidOperation` with no bus activity and no state change"
(30_encoding.md R99). -/
def refuseCommand (s : State) : Host.Outcome State Fault Refusal := .next (s.raise .invalidOperation)

/-- Put an operation where the block takes its next one (log 8): a host command word at the host port; a step that is
no host command at the sequencer. -/
def placeWord (l : Layout) (w : Word) (s : State) : State :=
  match decode l w with
  | some i =>
    if i.isCommand then { s with host := w :: s.host, rst := false, busy := false, seq := .idle }
    else { s with rst := false, busy := true, seq := .running i 0 }
  | none => { s with host := w :: s.host, rst := false, busy := false, seq := .idle }

end Sys2Proof.Machine
end

