-- ==== Sys2Proof/Machine/Step.lean ====
section
/-! DEFINITION. One step of the block: one whole operation, a reset, or a wait (log 2). -/

namespace Sys2Proof.Machine

/-- One step. It never ends in a fault or a refusal: every error of the spec is a response. -/
def step (s : State) : Host.Outcome State Fault Refusal :=
  match nextOf s with
  | .reset => .next s.blockReset
  | .stay => .next s
  | .run i s' => exec i s'
  | .invalid s' => refuseCommand s'

/-- `s` with the opcode-table word `w` of `nbits` bits placed where the next step takes it (log 8). -/
def State.withFetchWord (s : State) (nbits w : Nat) : State :=
  placeWord (tableLayout nbits (BitVec.ofNat 32 w)) (BitVec.ofNat 32 w) s

end Sys2Proof.Machine
end

