-- ==== Sys2Proof/Safety.lean ====
section
/-! DEFINITION. The words the claims are stated in: what a frame transaction puts on the wire, what the environment
answers, the state an operation leaves, and the properties every step keeps. Written from the rules, event list by event
list, not from the machine's own run. -/

namespace Sys2Proof

/-! ### Command words -/

/-- The bits of a command word that its operation reads: the opcode table's mask and the operands that are not
"ignored" (30_encoding.md R81). -/
def Instr.usedBits : Instr → Word
  | .writeReg _ _ => 0xFFFFFFFF
  | .readReg _ => 0xFFFF0000
  | .setRange _ _ => 0xFFFFFFFF
  | .getRange _ => 0xFFFF0000
  | .setPower _ _ => 0xFFFFFFFF
  | .setSync _ _ => 0xFFFFFFFF
  | .setToggleMode _ _ => 0xFFFFFFFF
  | .setOutput _ _ => 0xFFFFFFFF
  | .setBcastEn _ _ => 0xFFFFFFFF
  | .triggerLdac => 0xFFFF0000
  | .triggerAlarmReset => 0xFFFF0000
  | .triggerDefaultsReset => 0xFFFF0000
  | .triggerToggle _ => 0xFFFFFFFF
  | .deviceIdentity => 0xFF000000
  | .isResponding => 0xFF000000
  | .init => 0xFF000000
  | .getLastStatus => 0xFF000000
  | .writeFrame _ _ => 0x00FFFFFF
  | .readRequestFrame _ => 0x00FFFFFF
  | .readDataFrameTx _ => 0x00FFFFFF
  | .readDataFrameRx _ _ => 0x00FFFFFF
  | .responseWord _ _ _ => 0xFFFFFFFF

/-- The operation codes of R81 other than 0x20. -/
def listedOps : List Byte := [0x01, 0x02, 0x10, 0x11, 0x12, 0x13, 0x14, 0x15, 0x16, 0x30, 0x31, 0x40, 0x50]

/-- "whose `op` is not in rule R81's table, or whose `op` is 0x20 with `a > 3`" (30_encoding.md R99). -/
def unlisted (w : Word) : Bool :=
  !listedOps.contains (w.extractLsb' 24 8) &&
    !(w.extractLsb' 24 8 == 0x20#8 && decide ((w.extractLsb' 16 8).toNat ≤ 3))

/-- The operations that may write the range cache (10_state.md R21). -/
def Instr.writesRanges : Instr → Bool
  | .writeReg _ _ => false
  | .readReg _ => false
  | .setRange _ _ => true
  | .getRange _ => false
  | .setPower _ _ => false
  | .setSync _ _ => false
  | .setToggleMode _ _ => false
  | .setOutput _ _ => false
  | .setBcastEn _ _ => false
  | .triggerLdac => false
  | .triggerAlarmReset => false
  | .triggerDefaultsReset => false
  | .triggerToggle _ => false
  | .deviceIdentity => false
  | .isResponding => false
  | .init => true
  | .getLastStatus => false
  | .writeFrame _ _ => false
  | .readRequestFrame _ => false
  | .readDataFrameTx _ => false
  | .readDataFrameRx _ _ => false
  | .responseWord _ _ _ => false

/-- The operations that may write the range field of channel `k` (41_range.md R141, 44_identity_init.md R204). -/
def Instr.writesRangeOf (k : Fin 16) : Instr → Bool
  | .writeReg _ _ => false
  | .readReg _ => false
  | .setRange ch _ => ch.toNat == k.val
  | .getRange _ => false
  | .setPower _ _ => false
  | .setSync _ _ => false
  | .setToggleMode _ _ => false
  | .setOutput _ _ => false
  | .setBcastEn _ _ => false
  | .triggerLdac => false
  | .triggerAlarmReset => false
  | .triggerDefaultsReset => false
  | .triggerToggle _ => false
  | .deviceIdentity => false
  | .isResponding => false
  | .init => true
  | .getLastStatus => false
  | .writeFrame _ _ => false
  | .readRequestFrame _ => false
  | .readDataFrameTx _ => false
  | .readDataFrameRx _ _ => false
  | .responseWord _ _ _ => false

/-- The steps that perform a read transaction, or its receiving end: the ones that may write `last_status`
(10_state.md R26). -/
def Instr.readsDevice : Instr → Bool
  | .writeReg _ _ => false
  | .readReg _ => true
  | .setRange _ _ => false
  | .getRange _ => false
  | .setPower _ _ => true
  | .setSync _ _ => true
  | .setToggleMode _ _ => true
  | .setOutput _ _ => false
  | .setBcastEn _ _ => true
  | .triggerLdac => false
  | .triggerAlarmReset => false
  | .triggerDefaultsReset => false
  | .triggerToggle _ => false
  | .deviceIdentity => true
  | .isResponding => true
  | .init => false
  | .getLastStatus => false
  | .writeFrame _ _ => false
  | .readRequestFrame _ => false
  | .readDataFrameTx _ => false
  | .readDataFrameRx _ _ => true
  | .responseWord _ _ _ => false

/-- How many frame transactions an operation has when nothing fails (70_reset_and_hazards.md R279). -/
def Instr.frameCount : Instr → Nat
  | .writeReg _ _ => 1
  | .readReg _ => 2
  | .setRange _ _ => 1
  | .getRange _ => 0
  | .setPower _ _ => 3
  | .setSync _ _ => 3
  | .setToggleMode _ _ => 3
  | .setOutput _ _ => 1
  | .setBcastEn _ _ => 3
  | .triggerLdac => 1
  | .triggerAlarmReset => 1
  | .triggerDefaultsReset => 1
  | .triggerToggle _ => 1
  | .deviceIdentity => 2
  | .isResponding => 2
  | .init => 17
  | .getLastStatus => 0
  | .writeFrame _ _ => 1
  | .readRequestFrame _ => 1
  | .readDataFrameTx _ => 1
  | .readDataFrameRx _ _ => 0
  | .responseWord _ _ _ => 0

end Sys2Proof

namespace Sys2Proof.Machine

/-! ### The wire -/

/-- A wait as the trace shows it: a wait of 0 leaves no event (spec/00_scope.md R13). -/
def waitEvents (d : Nat) : List Event := if d = 0 then [] else [.wait d]

/-- The events of one complete frame transaction (40_framer.md R120). -/
def frameEvents (c : Config) (tx : Bytes3) (r : XferResult) : List Event :=
  [.cs false] ++ waitEvents c.tPre ++ [.xfer tx r] ++ waitEvents c.tGuard ++ [.cs true] ++ waitEvents c.tCsHigh

/-- The frames of an operation: what was sent and what was answered, in order. -/
abbrev Frames := List (Bytes3 × XferResult)

/-- The events of several frame transactions in a row (20_memory.md R62). -/
def framesEvents (c : Config) (fs : Frames) : List Event := fs.flatMap fun p => frameEvents c p.1 p.2

/-! ### The environment -/

/-- The answer the next frame transaction gets with bytes `tx`; `none` if the environment never ends an event the
transaction has (60_exceptions.md R236). -/
def State.reply (tx : Bytes3) (s : State) : Option XferResult :=
  match (s.nextTurn tx).stall with
  | none => some (s.nextTurn tx).answer
  | some .pre => if s.cfg.tPre = 0 then some (s.nextTurn tx).answer else none
  | some .xfer => none
  | some .guard => if s.cfg.tGuard = 0 then some (s.nextTurn tx).answer else none
  | some .csHigh => if s.cfg.tCsHigh = 0 then some (s.nextTurn tx).answer else none

/-- `n` turns of the environment are used. -/
def State.useTurns : Nat → State → State
  | 0, s => s
  | n + 1, s => (s.useTurn).useTurns n

/-- The environment answers the coming frame transactions as listed. -/
def State.answers : Frames → State → Bool
  | [], _ => true
  | (tx, r) :: fs, s => decide (s.reply tx = some r) && s.useTurn.answers fs

/-! ### What an operation leaves -/

/-- After an operation with these frames and this response: the turns used, the frames on the wire, the select line
high if there was a frame, the response given, the sequencer idle; everything else as before. -/
def State.completed (fs : Frames) (w : Word) (s : State) : State :=
  { s.useTurns fs.length with
    trace := s.trace ++ framesEvents s.cfg fs
    csN := if fs.isEmpty then s.csN else true
    responses := s.responses ++ [w]
    seq := .idle
    busy := false }

/-- After a step of the sequencer that is no host command: as `completed`, with no response (log 7). -/
def State.sequenced (fs : Frames) (s : State) : State :=
  { s.useTurns fs.length with
    trace := s.trace ++ framesEvents s.cfg fs
    csN := if fs.isEmpty then s.csN else true
    seq := .idle
    busy := false }

/-- An operation answers with an error before any frame: "the block state and the wire trace are exactly as before
the command" (60_exceptions.md R229). -/
def State.rejected (w : Word) (s : State) : State :=
  { s with responses := s.responses ++ [w], seq := .idle, busy := false }

/-- A successful read transaction has latched its status byte (10_state.md R26). -/
def State.withStatus (b : Byte) (s : State) : State := { s with lastStatus := b, lastStatusValid := true }

/-- The range cache after SET_RANGE's merge for each channel of a list in turn (41_range.md R141). -/
def rangesSet (code : BitVec 4) : List (Fin 16) → Vector Half 4 → Vector Half 4
  | [], rc => rc
  | ch :: chs, rc => rangesSet code chs (rc.set (rangeIndex ch) (rangeEncode rc[rangeIndex ch] ch code))

/-- The range frames of INIT's loop (44_identity_init.md R204), from a range cache. -/
def initRangeTxs (c : Config) : List (Fin 16) → Vector Half 4 → List Bytes3
  | [], _ => []
  | ch :: chs, rc =>
    writeTx (rangeAddr c (rangeIndex ch)) (rangeEncode rc[rangeIndex ch] ch c.defaultRange.code) ::
      initRangeTxs c chs (rc.set (rangeIndex ch) (rangeEncode rc[rangeIndex ch] ch c.defaultRange.code))

/-- The seventeen frames of INIT (44_identity_init.md R204). -/
def initTxs (c : Config) (rc : Vector Half 4) : List Bytes3 :=
  writeTx c.aSpiConfig c.spiConfigInit :: initRangeTxs c allChannels rc

/-- A code "replicated in its four fields" (44_identity_init.md R204). -/
def replicated (code : BitVec 4) : Half := code ++ code ++ code ++ code

/-! ### Events -/

/-- Whether an event is an exchange. -/
def Event.isXfer : Event → Bool
  | .cs _ => false
  | .xfer _ _ => true
  | .wait _ => false

/-- Whether an event is an exchange the transport failed. -/
def Event.isFailedXfer : Event → Bool
  | .cs _ => false
  | .xfer _ r => r == .err
  | .wait _ => false

/-! ### What every step keeps -/

/-- Where the wire stands inside a frame transaction (40_framer.md R120). -/
inductive Line where
  /-- Between frame transactions. -/
  | rest
  /-- Selected, the pre guard to come. -/
  | selected
  /-- Selected, the exchange to come. -/
  | ready
  /-- Exchanged, the post-transfer guard to come. -/
  | exchanged
  /-- The guard is over, the deassertion to come. -/
  | guarded
  /-- Deasserted, the select-high wait to come. -/
  | raised
deriving DecidableEq, Repr

/-- The one event that may come next (40_framer.md R120). -/
def Line.next (c : Config) : Line → Event → Option Line
  | .rest, .cs false => some (if c.tPre = 0 then .ready else .selected)
  | .selected, .wait d => if d = c.tPre then some .ready else none
  | .ready, .xfer _ _ => some (if c.tGuard = 0 then .guarded else .exchanged)
  | .exchanged, .wait d => if d = c.tGuard then some .guarded else none
  | .guarded, .cs true => some (if c.tCsHigh = 0 then .rest else .raised)
  | .raised, .wait d => if d = c.tCsHigh then some .rest else none
  | _, _ => none

/-- Where the wire stands after a list of events; `none` if they are no sequence of frame transactions. -/
def Line.after (c : Config) : Line → List Event → Option Line
  | l, [] => some l
  | l, e :: es =>
    match l.next c e with
    | some l' => l'.after c es
    | none => none

/-- The level of the select line (10_state.md R25). -/
def Line.level : Line → Bool
  | .rest => true
  | .selected => false
  | .ready => false
  | .exchanged => false
  | .guarded => false
  | .raised => true

/-- The places at which the environment can hold the block: a wait or the exchange (60_exceptions.md R236). -/
def Line.holds : Line → Bool
  | .rest => false
  | .selected => true
  | .ready => true
  | .exchanged => true
  | .guarded => false
  | .raised => true

/-- The wire fits the sequencer: at rest when idle or at the first event of an operation, at a wait or an exchange
otherwise. -/
def Line.fits (l : Line) : Seq → Bool
  | .idle => l == .rest
  | .running _ 0 => l == .rest
  | .running _ (_ + 1) => l.holds

/-- The wire trace is a sequence of frame transactions, the last one perhaps unfinished (40_framer.md R126 (a) to (d)),
`cs_n` is the level it leaves (10_state.md R25), `busy` says whether the sequencer is idle (R28), and an unfinished
transaction belongs to an operation in progress. -/
def State.Framed (s : State) : Prop :=
  (∃ l : Line, Line.after s.cfg .rest s.trace = some l ∧ s.csN = l.level ∧ l.fits s.seq = true) ∧
    (s.busy = true ↔ s.seq ≠ .idle)

/-- Every field of the range cache holds a valid code, or, before INIT has completed, the zero of reset
(10_state.md R22, 30_encoding.md R91). -/
def State.RangesValid (s : State) : Prop :=
  ∀ ch : Fin 16, rangeDecode (s.readRC (rangeIndex ch)) ch ∈ s.cfg.validRange ∨
    (s.phase = .uninitialized ∧ rangeDecode (s.readRC (rangeIndex ch)) ch = 0)

/-- The three kinds of frame the block transmits (30_encoding.md R100): a write to, or a read request of, an address
in `VALID_ADDR`, and the dummy bytes. -/
def frameAllowed (c : Config) (tx : Bytes3) : Prop :=
  tx.b0 ∈ c.validAddrs ∨ (∃ a ∈ c.validAddrs, tx = ⟨a ||| 0xC0, 0x00, 0x00⟩) ∨
    tx = ⟨c.dummyByte, c.dummyByte, c.dummyByte⟩

/-- Only such frames are in the wire trace, and the sequencer is idle or in a host command. -/
def State.WireAllowed (s : State) : Prop :=
  (∀ tx r, Event.xfer tx r ∈ s.trace → frameAllowed s.cfg tx) ∧
    ∀ i n, s.seq = .running i n → i.isCommand = true

/-- No operation that may write the range field of channel `k` is in progress or still to be presented, and reset is
not asserted. -/
def State.RangeQuiet (k : Fin 16) (s : State) : Prop :=
  s.rst = false ∧ (∀ w ∈ s.host, ∀ i, decode .command w = some i → i.writesRangeOf k = false) ∧
    ∀ i n, s.seq = .running i n → i.writesRangeOf k = false

/-- The cache holds `code` for channel `k`, and nothing that may write the field is in progress or still to come. -/
def State.RangeHeld (k : Fin 16) (code : RawRange) (s : State) : Prop :=
  s.RangeQuiet k ∧ rangeDecode (s.readRC (rangeIndex k)) k = code

/-! ### The shapes of operations -/

/-- What a command that is one read transaction of register `addr` does when the read transaction fails, in its first or
in its second frame (40_framer.md R123, 60_exceptions.md R229). -/
def readFailures (i : Instr) (addr : Byte) (s : State) : Prop :=
  (s.answers [(readRequestTx addr, .err)] = true →
    exec i s = .next (s.completed [(readRequestTx addr, .err)] 0x10000000)) ∧
  (∀ r1, s.answers [(readRequestTx addr, .ok r1), (readDataTx s.cfg.dummyByte, .err)] = true →
    exec i s = .next
      (s.completed [(readRequestTx addr, .ok r1), (readDataTx s.cfg.dummyByte, .err)] 0x10000000))

/-- What such a command does when both frames are answered: the status byte is latched and the response carries
`aux` and `data`, functions of the received bytes (40_framer.md R123). -/
def readSuccess (i : Instr) (addr : Byte) (aux : Bytes3 → Byte) (data : Bytes3 → Half) (s : State) : Prop :=
  ∀ r1 rx, s.answers [(readRequestTx addr, .ok r1), (readDataTx s.cfg.dummyByte, .ok rx)] = true →
    exec i s = .next
      ((s.completed [(readRequestTx addr, .ok r1), (readDataTx s.cfg.dummyByte, .ok rx)]
        (0#8 ++ aux rx ++ data rx)).withStatus rx.b0)

/-- The read-modify-write of 42_bitmask.md R160 on register `addr` with the function `f`: the three frames, the status
byte latched, the response; and what each failing frame leaves (60_exceptions.md R229). -/
def readModifyWrite (i : Instr) (addr : Byte) (f : Half → Half) (s : State) : Prop :=
  (∀ r1 rx r3, s.answers [(readRequestTx addr, .ok r1), (readDataTx s.cfg.dummyByte, .ok rx),
      (writeTx addr (f (rx.b1 ++ rx.b2)), .ok r3)] = true →
    exec i s = .next ((s.completed [(readRequestTx addr, .ok r1), (readDataTx s.cfg.dummyByte, .ok rx),
      (writeTx addr (f (rx.b1 ++ rx.b2)), .ok r3)] 0x00000000).withStatus rx.b0)) ∧
  (∀ r1 rx, s.answers [(readRequestTx addr, .ok r1), (readDataTx s.cfg.dummyByte, .ok rx),
      (writeTx addr (f (rx.b1 ++ rx.b2)), .err)] = true →
    exec i s = .next ((s.completed [(readRequestTx addr, .ok r1), (readDataTx s.cfg.dummyByte, .ok rx),
      (writeTx addr (f (rx.b1 ++ rx.b2)), .err)] 0x10000000).withStatus rx.b0)) ∧
  readFailures i addr s

/-- A read-modify-write command whose field operand is 0 or 1: the channel check, then the field check, then the
read-modify-write with `f` of the channel and the bit (42_bitmask.md R161 to R163). -/
def bitmaskCommand (cmd : Byte → Half → Instr) (addr : Config → Byte)
    (f : Config → Fin 16 → Bool → Half → Half) : Prop :=
  ∀ (s : State) (ch : Byte) (b : Half),
    (15 < ch.toNat → exec (cmd ch b) s = .next (s.rejected 0x20000000)) ∧
    (∀ k : Fin 16, ch.toNat = k.val →
      (1 < b.toNat → exec (cmd ch b) s = .next (s.rejected 0x30000000)) ∧
      (∀ bit : Bool, b = (BitVec.ofBool bit).setWidth 16 →
        readModifyWrite (cmd ch b) (addr s.cfg) (f s.cfg k bit) s))

/-- A command that is one write frame of `v` to `addr`, and its transport error (43_output_trigger.md R181). -/
def oneWrite (i : Instr) (addr : Byte) (v : Half) (s : State) : Prop :=
  (∀ rx, s.answers [(writeTx addr v, .ok rx)] = true →
    exec i s = .next (s.completed [(writeTx addr v, .ok rx)] 0x00000000)) ∧
  (s.answers [(writeTx addr v, .err)] = true →
    exec i s = .next (s.completed [(writeTx addr v, .err)] 0x10000000))

/-- The environment holds the operation: it stays in progress, gives no response, and the block's data is as before
(60_exceptions.md R236). -/
def heldBy (i : Instr) (s : State) : Prop :=
  ∃ t, exec i s = .next t ∧ t.busy = true ∧ t.responses = s.responses ∧ t.rc = s.rc ∧ t.phase = s.phase ∧
    t.lastStatus = s.lastStatus ∧ t.lastStatusValid = s.lastStatusValid

end Sys2Proof.Machine
end

