-- ==== Sys2Proof/Certificates/Slice0/Obligations.lean ====
section
/-! DEFINITION. The statements for the provers. Each docstring names the rules of spec/ it formalises. Words used:
`s.answers fs` says that the environment answers the coming frames as listed, `s.completed fs w` is the state an
operation with these frames and response word `w` leaves, `s.rejected w` the one it leaves without any frame
(Sys2Proof/Safety.lean). "decision D<n>" is a choice the spec marks as its own (92_eei_decisions.md; log 14): the words'
layout and the numbers of the error codes are its decisions D2 and D3 throughout. -/

open Sys2Proof Sys2Proof.Machine

/-! ### Encodings -/

/-- Every well-formed operation's word, read in its own layout, is that operation (spec/30_encoding.md R81, R82, R85 to
R88). -/
def Obligations.DecodeInvertsEncode : Prop :=
  ∀ i : Instr, i.wf = true → decode i.layout (encode i) = some i

/-- A command word is an operation exactly when it agrees with that operation's word on the bits the operation reads;
the other bits change nothing (30_encoding.md R81). -/
def Obligations.CommandWordsAreReadByTheirUsedBits : Prop :=
  ∀ (w : Word) (i : Instr), decode .command w = some i ↔
    (i.isCommand = true ∧ w &&& i.usedBits = encode i &&& i.usedBits)

/-- The decoder refuses exactly the words of 30_encoding.md R99 (decision D2). -/
def Obligations.UnlistedWordsMatchNoOperation : Prop :=
  ∀ w : Word, decode .command w = none ↔ unlisted w = true

/-- Words written out from the table of 30_encoding.md R81 and the decoder vectors of 95_test_vectors.md 2.1. -/
def Obligations.DecoderReadsSampleWords : Prop :=
  decode .command 0x010F1234 = some (.writeReg 0x0F 0x1234) ∧
  decode .command 0x0209BEEF = some (.readReg 0x09) ∧
  decode .command 0x1009000C = some (.setRange 0x09 0x000C) ∧
  decode .command 0x1105FFFF = some (.getRange 0x05) ∧
  decode .command 0x2000FFFF = some .triggerLdac ∧
  decode .command 0x20030002 = some (.triggerToggle 2) ∧
  decode .command 0x20040000 = none ∧
  decode .command 0x00000000 = none ∧
  decode .command 0x40123456 = some .init

/-- The bytes the transport sends and takes are the frames of 30_encoding.md R85 to R88, byte 0 in the high byte. -/
def Obligations.TransportBytesAreTheFrameLayouts : Prop :=
  (∀ (a : BitVec 6) (v : Half), (writeTx (a.setWidth 8) v).b0 ++ (writeTx (a.setWidth 8) v).b1 ++
      (writeTx (a.setWidth 8) v).b2 = (encode (.writeFrame a v)).setWidth 24) ∧
  (∀ a : BitVec 6, (readRequestTx (a.setWidth 8)).b0 ++ (readRequestTx (a.setWidth 8)).b1 ++
      (readRequestTx (a.setWidth 8)).b2 = (encode (.readRequestFrame a)).setWidth 24) ∧
  (∀ d : Byte, (readDataTx d).b0 ++ (readDataTx d).b1 ++ (readDataTx d).b2 =
      (encode (.readDataFrameTx d)).setWidth 24) ∧
  (∀ rx : Bytes3, rx.b0 ++ rx.b1 ++ rx.b2 = (encode (.readDataFrameRx rx.b0 (rxValue rx))).setWidth 24)

/-! ### Packed fields -/

/-- The range functions of 30_encoding.md R92, bit by bit, with their two laws. -/
def Obligations.RangeFieldsPackFourToAWord : Prop :=
  (∀ ch : Fin 16, (rangeIndex ch).val = ch.val / 4 ∧ rangeShift ch = 4 * (ch.val % 4)) ∧
  (∀ (ch : Fin 16) (k : Nat), (rangeMask ch).getLsbD k =
    decide (4 * (ch.val % 4) ≤ k ∧ k < 4 * (ch.val % 4) + 4)) ∧
  (∀ (w : Half) (ch : Fin 16) (code : BitVec 4) (k : Nat),
    (rangeEncode w ch code).getLsbD k =
      if 4 * (ch.val % 4) ≤ k ∧ k < 4 * (ch.val % 4) + 4 then code.getLsbD (k - 4 * (ch.val % 4)) else w.getLsbD k) ∧
  (∀ (w : Half) (ch : Fin 16), rangeDecode w ch = w.extractLsb' (4 * (ch.val % 4)) 4) ∧
  (∀ (w : Half) (ch : Fin 16) (code : BitVec 4), rangeDecode (rangeEncode w ch code) ch = code) ∧
  (∀ (w : Half) (ch ch2 : Fin 16) (code : BitVec 4), ch2.val / 4 = ch.val / 4 → ch2 ≠ ch →
    rangeDecode (rangeEncode w ch code) ch2 = rangeDecode w ch2)

/-- The mask functions of 30_encoding.md R93: bit `ch` is set or cleared and no other bit changes. That
the channel's bit is bit `ch` is decision D7. -/
def Obligations.MaskFunctionsChangeTheChannelsBit : Prop :=
  ∀ (v : Half) (ch : Fin 16) (k : Nat),
    (bitMask ch).getLsbD k = decide (k = ch.val) ∧
    (bitSet v ch).getLsbD k = (if k = ch.val then true else v.getLsbD k) ∧
    (bitClear v ch).getLsbD k = (if k = ch.val then false else v.getLsbD k)

/-- Every case of `toggle_apply` assigns the mode to the channel's 2-bit field and leaves the other bits
(30_encoding.md R94). The numbering of the modes is decision D12. -/
def Obligations.ToggleModeAssignsItsField : Prop :=
  ∀ (v : Half) (ch : Fin 16) (b : Half) (m : ToggleMode), toggleModeOf b = some m → ∀ k : Nat,
    (toggleApply v ch m).getLsbD k =
      if k = 2 * (ch.val % 8) then b.getLsbD 0
      else if k = 2 * (ch.val % 8) + 1 then b.getLsbD 1
      else v.getLsbD k

/-! ### Framer commands -/

/-- WRITE_REG (40_framer.md R122): the address check, the one write frame, the error of a failed exchange. The
check and its error are decision D5. -/
def Obligations.WriteRegSendsOneWriteFrame : Prop :=
  ∀ (s : State) (addr : Byte) (value : Half),
    (addr ∉ s.cfg.validAddrs → exec (.writeReg addr value) s = .next (s.rejected 0x40000000)) ∧
    (addr ∈ s.cfg.validAddrs → ∀ rx, s.answers [(writeTx addr value, .ok rx)] = true →
      exec (.writeReg addr value) s = .next (s.completed [(writeTx addr value, .ok rx)] 0x00000000)) ∧
    (addr ∈ s.cfg.validAddrs → s.answers [(writeTx addr value, .err)] = true →
      exec (.writeReg addr value) s = .next (s.completed [(writeTx addr value, .err)] 0x10000000))

/-- READ_REG (40_framer.md R124). The address check is decision D5, the status byte's field decision D11. -/
def Obligations.ReadRegAnswersStatusAndValue : Prop :=
  ∀ (s : State) (addr : Byte),
    (addr ∉ s.cfg.validAddrs → exec (.readReg addr) s = .next (s.rejected 0x40000000)) ∧
    (addr ∈ s.cfg.validAddrs →
      readSuccess (.readReg addr) addr (fun rx => rx.b0) (fun rx => rx.b1 ++ rx.b2) s ∧
      readFailures (.readReg addr) addr s)

/-! ### Range commands -/

/-- SET_RANGE (41_range.md R141): the checks in their order, the whole merged word on the wire, and the cache updated
only when the write succeeded. -/
def Obligations.SetRangeWritesTheWordThenTheCache : Prop :=
  ∀ (s : State) (ch : Byte) (code : Half),
    (15 < ch.toNat → exec (.setRange ch code) s = .next (s.rejected 0x20000000)) ∧
    (∀ k : Fin 16, ch.toNat = k.val →
      ((∀ c ∈ s.cfg.validRange, code ≠ c.setWidth 16) →
        exec (.setRange ch code) s = .next (s.rejected 0x30000000)) ∧
      (∀ c ∈ s.cfg.validRange, code = c.setWidth 16 →
        (∀ rx, s.answers [(writeTx (s.cfg.aDacRangeBase + BitVec.ofNat 8 (k.val / 4))
              (rangeEncode s.rc[rangeIndex k] k c), .ok rx)] = true →
          exec (.setRange ch code) s = .next
            { s.completed [(writeTx (s.cfg.aDacRangeBase + BitVec.ofNat 8 (k.val / 4))
                (rangeEncode s.rc[rangeIndex k] k c), .ok rx)] 0x00000000 with
              rc := s.rc.set (rangeIndex k) (rangeEncode s.rc[rangeIndex k] k c) }) ∧
        (s.answers [(writeTx (s.cfg.aDacRangeBase + BitVec.ofNat 8 (k.val / 4))
              (rangeEncode s.rc[rangeIndex k] k c), .err)] = true →
          exec (.setRange ch code) s = .next
            (s.completed [(writeTx (s.cfg.aDacRangeBase + BitVec.ofNat 8 (k.val / 4))
              (rangeEncode s.rc[rangeIndex k] k c), .err)] 0x10000000))))

/-- "On any error `RC` is exactly as before the operation" (41_range.md R141), and the same while the environment holds
it: a SET_RANGE that does not answer OK leaves the cache alone. -/
def Obligations.SetRangeWithoutAnOkLeavesTheCache : Prop :=
  ∀ (s t : State) (ch : Byte) (code : Half), exec (.setRange ch code) s = .next t →
    t.responses ≠ s.responses ++ [0x00000000] → t.rc = s.rc

/-- GET_RANGE (41_range.md R143): the channel's field of the cache, and no frame. Its error is decision D20. -/
def Obligations.GetRangeAnswersFromTheCache : Prop :=
  ∀ (s : State) (ch : Byte),
    (15 < ch.toNat → exec (.getRange ch) s = .next (s.rejected 0x20000000)) ∧
    (∀ k : Fin 16, ch.toNat = k.val →
      exec (.getRange ch) s = .next (s.completed []
        (0#28 ++ s.rc[rangeIndex k].extractLsb' (4 * (k.val % 4)) 4)))

/-- "`set_channel_range(ch, r); get_channel_range(ch) == r`, and no other channel's cached range changes", and a
SET_RANGE that answers any error changes no GET_RANGE (41_range.md R144). A GET_RANGE's answer is the last response of
the state it leaves. -/
def Obligations.SetRangeThenGetRangeReturnsTheCode : Prop :=
  ∀ (s t : State) (k : Fin 16) (code : Half),
    exec (.setRange (BitVec.ofNat 8 k.val) code) s = .next t → t.busy = false →
    ∃ e : Word, t.responses = s.responses ++ [e] ∧
      (e = 0x00000000 → exec (.getRange (BitVec.ofNat 8 k.val)) t = .next (t.completed [] (0#16 ++ code))) ∧
      (∀ k2 : Fin 16, e ≠ 0x00000000 ∨ k2 ≠ k → ∃ w,
        exec (.getRange (BitVec.ofNat 8 k2.val)) s = .next (s.completed [] w) ∧
        exec (.getRange (BitVec.ofNat 8 k2.val)) t = .next (t.completed [] w))

/-! ### Read-modify-write commands -/

/-- SET_POWER (42_bitmask.md R161): 1, enabled, clears the channel's bit; 0 sets it. The field check is
decision D19, the bit's place decision D7. -/
def Obligations.SetPowerClearsTheBitToEnable : Prop :=
  bitmaskCommand .setPower (fun c => c.aDacPwdwn) fun _ k bit v => if bit then bitClear v k else bitSet v k

/-- SET_SYNC (42_bitmask.md R162): 1, Sync, sets the channel's bit; 0 clears it. The field check is decision D19,
the bit's place decision D7. -/
def Obligations.SetSyncSetsTheBitForSync : Prop :=
  bitmaskCommand .setSync (fun c => c.aSyncConfig) fun _ k bit v => if bit then bitSet v k else bitClear v k

/-- SET_BCAST_EN (42_bitmask.md R163): 1, included, sets the channel's bit; "for `inverted` exchange `bit_set` and
`bit_clear`". The operation is the spec's own, decision D15. -/
def Obligations.SetBcastEnFollowsThePolarity : Prop :=
  bitmaskCommand .setBcastEn (fun c => c.aBrdConfig) fun c k bit v =>
    if bit = (c.bcastPolarity == .direct) then bitSet v k else bitClear v k

/-- SET_TOGGLE_MODE (42_bitmask.md R164): register 1 for channels below 8, else register 0. -/
def Obligations.SetToggleModeEditsTheHalfsRegister : Prop :=
  ∀ (s : State) (ch : Byte) (b : Half),
    (15 < ch.toNat → exec (.setToggleMode ch b) s = .next (s.rejected 0x20000000)) ∧
    (∀ k : Fin 16, ch.toNat = k.val →
      (3 < b.toNat → exec (.setToggleMode ch b) s = .next (s.rejected 0x30000000)) ∧
      (∀ m : ToggleMode, toggleModeOf b = some m →
        (k.val < 8 →
          readModifyWrite (.setToggleMode ch b) s.cfg.aToggConfig1 (fun v => toggleApply v k m) s) ∧
        (8 ≤ k.val →
          readModifyWrite (.setToggleMode ch b) s.cfg.aToggConfig0 (fun v => toggleApply v k m) s)))

/-- The power-down pair (42_bitmask.md R165): if the second command's read returns the word the first one wrote, the
second one writes the first one's value with the channel's bit cleared. `v0` is what the first read returned. -/
def Obligations.PowerPairLeavesTheBitCleared : Prop :=
  ∀ (s t : State) (k : Fin 16) (r1 rx r3 q1 qx q3 : Bytes3),
    s.answers [(readRequestTx s.cfg.aDacPwdwn, .ok r1), (readDataTx s.cfg.dummyByte, .ok rx),
      (writeTx s.cfg.aDacPwdwn (bitSet (rx.b1 ++ rx.b2) k), .ok r3)] = true →
    exec (.setPower (BitVec.ofNat 8 k.val) 0) s = .next t →
    qx.b1 ++ qx.b2 = bitSet (rx.b1 ++ rx.b2) k →
    t.answers [(readRequestTx s.cfg.aDacPwdwn, .ok q1), (readDataTx s.cfg.dummyByte, .ok qx),
      (writeTx s.cfg.aDacPwdwn (bitClear (rx.b1 ++ rx.b2) k), .ok q3)] = true →
    exec (.setPower (BitVec.ofNat 8 k.val) 1) t = .next
      ((t.completed [(readRequestTx s.cfg.aDacPwdwn, .ok q1), (readDataTx s.cfg.dummyByte, .ok qx),
        (writeTx s.cfg.aDacPwdwn (bitClear (rx.b1 ++ rx.b2) k), .ok q3)] 0x00000000).withStatus qx.b0)

/-! ### Output and trigger commands -/

/-- SET_OUTPUT (43_output_trigger.md R180): the value unchanged to the channel's output register. -/
def Obligations.SetOutputWritesTheChannelsRegister : Prop :=
  ∀ (s : State) (ch : Byte) (value : Half),
    (15 < ch.toNat → exec (.setOutput ch value) s = .next (s.rejected 0x20000000)) ∧
    (ch.toNat ≤ 15 → oneWrite (.setOutput ch value) (s.cfg.aDacBase + ch) value s)

/-- TRIGGER_LDAC, TRIGGER_ALARM_RESET and TRIGGER_DEFAULTS_RESET (43_output_trigger.md R182 to R184): one write frame of
the payload; no block state changes, `RC` and `phase` among it. -/
def Obligations.TriggersWriteTheirPayload : Prop :=
  ∀ s : State,
    oneWrite .triggerLdac s.cfg.aTrigger s.cfg.trigLdac s ∧
    oneWrite .triggerAlarmReset s.cfg.aTrigger s.cfg.trigAlarmReset s ∧
    oneWrite .triggerDefaultsReset s.cfg.aTrigger s.cfg.trigDefaultsReset s

/-- TRIGGER_TOGGLE (43_output_trigger.md R185): selectors 1 to 3 write their payload, any other is refused.
The selector's encoding is decision D14. -/
def Obligations.TriggerToggleWritesTheSelectedPayload : Prop :=
  ∀ (s : State) (sel : Half),
    (sel = 0 ∨ 3 < sel.toNat → exec (.triggerToggle sel) s = .next (s.rejected 0x30000000)) ∧
    (sel = 1 → oneWrite (.triggerToggle sel) s.cfg.aTrigger s.cfg.trigToggle1 s) ∧
    (sel = 2 → oneWrite (.triggerToggle sel) s.cfg.aTrigger s.cfg.trigToggle2 s) ∧
    (sel = 3 → oneWrite (.triggerToggle sel) s.cfg.aTrigger s.cfg.trigToggle3 s)

/-! ### Identity, initialisation, status -/

/-- DEVICE_IDENTITY (44_identity_init.md R200): `aux` the low 2 bits, `data` the top 14 bits of the device-ID register.
That a transport fault is an error is decision D21. -/
def Obligations.DeviceIdentitySplitsTheIdRegister : Prop :=
  ∀ s : State,
    readSuccess .deviceIdentity s.cfg.aDeviceId (fun rx => (rx.b2.extractLsb' 0 2).setWidth 8)
      (fun rx => (rx.b1 ++ rx.b2) >>> 2) s ∧
    readFailures .deviceIdentity s.cfg.aDeviceId s

/-- IS_RESPONDING (44_identity_init.md R202): 0 for a value of all zeros or all ones, else 1; a transport fault is an
error (decision D21). -/
def Obligations.IsRespondingJudgesTheIdValue : Prop :=
  ∀ s : State,
    readSuccess .isResponding s.cfg.aDeviceId (fun _ => 0)
      (fun rx => if rx.b1 ++ rx.b2 = 0x0000#16 ∨ rx.b1 ++ rx.b2 = 0xFFFF#16 then 0 else 1) s ∧
    readFailures .isResponding s.cfg.aDeviceId s

/-- INIT (44_identity_init.md R204) when no frame fails: the seventeen frames, every cache word the default range four
times, the phase; and when frame `n` (counted from 0) fails: the frames up to it, the cache updated for the `n - 1`
range writes that succeeded, the phase unchanged. The frames and their order are decision D16. -/
def Obligations.InitWritesSeventeenFrames : Prop :=
  ∀ s : State,
    (∀ rs : List Bytes3, rs.length = 17 →
      s.answers ((initTxs s.cfg s.rc).zip (rs.map .ok)) = true →
      exec .init s = .next
        { s.completed ((initTxs s.cfg s.rc).zip (rs.map .ok)) 0x00000000 with
          rc := #v[replicated s.cfg.defaultRange.code, replicated s.cfg.defaultRange.code,
            replicated s.cfg.defaultRange.code, replicated s.cfg.defaultRange.code]
          phase := .initialized }) ∧
    (∀ (rs : List Bytes3) (tx : Bytes3), (initTxs s.cfg s.rc)[rs.length]? = some tx →
      s.answers ((initTxs s.cfg s.rc).zip (rs.map .ok) ++ [(tx, .err)]) = true →
      exec .init s = .next
        { s.completed ((initTxs s.cfg s.rc).zip (rs.map .ok) ++ [(tx, .err)]) 0x10000000 with
          rc := rangesSet s.cfg.defaultRange.code (allChannels.take (rs.length - 1)) s.rc })

/-- GET_LAST_STATUS (44_identity_init.md R206): bit 0 is the valid bit, bit 1 the phase; no frame. The
operation is the spec's own, decision D11. -/
def Obligations.GetLastStatusShowsStatusAndPhase : Prop :=
  ∀ s : State, exec .getLastStatus s = .next (s.completed []
    (0#8 ++ s.lastStatus ++ 0#14 ++ BitVec.ofBool (s.phase == .initialized) ++ BitVec.ofBool s.lastStatusValid))

/-! ### The rows that are steps of the sequencer -/

/-- WRITE_FRAME, READ_REQUEST_FRAME and READ_DATA_FRAME_TX (30_encoding.md R85 to R87): one frame transaction
(40_framer.md R120) with the row's bytes, whatever the environment answers (decisions D8, D9). The model's choice is that
the row stands by itself and gives no response (log 7). -/
def Obligations.FrameRowsPerformOneFrame : Prop :=
  ∀ s : State,
    (∀ (a : BitVec 6) (v : Half) (r : XferResult),
      s.answers [(⟨a.setWidth 8, v.extractLsb' 8 8, v.extractLsb' 0 8⟩, r)] = true →
      exec (.writeFrame a v) s = .next
        (s.sequenced [(⟨a.setWidth 8, v.extractLsb' 8 8, v.extractLsb' 0 8⟩, r)])) ∧
    (∀ (a : BitVec 6) (r : XferResult),
      s.answers [(⟨0b11#2 ++ a, 0, 0⟩, r)] = true →
      exec (.readRequestFrame a) s = .next (s.sequenced [(⟨0b11#2 ++ a, 0, 0⟩, r)])) ∧
    (∀ (d : Byte) (r : XferResult), s.answers [(⟨d, d, d⟩, r)] = true →
      exec (.readDataFrameTx d) s = .next (s.sequenced [(⟨d, d, d⟩, r)]))

/-- READ_DATA_FRAME_RX latches the status byte (30_encoding.md R88, 10_state.md R26); RESPONSE_WORD gives the response
and returns the sequencer to IDLE (30_encoding.md R82, 60_exceptions.md R228). The model's choice is that the rows stand
by themselves (log 7). -/
def Obligations.ReceiveAndResponseRowsTakeEffect : Prop :=
  ∀ s : State,
    (∀ (st : Byte) (v : Half), exec (.readDataFrameRx st v) s = .next ((s.sequenced []).withStatus st)) ∧
    (∀ (e : BitVec 4) (x : Byte) (d : Half),
      exec (.responseWord e x d) s = .next (s.completed [] (e ++ 0#4 ++ x ++ d)))

/-! ### Acceptance, waiting, reset -/

/-- A step at an idle block runs the command word presented to it (30_encoding.md R81, 10_state.md R28): the word is
taken and the step is the operation it decodes to. That an operation is one step is the model's choice (log 2). -/
def Obligations.StepRunsTheDecodedCommand : Prop :=
  ∀ (s : State) (w : Word) (rest : List Word) (i : Instr),
    s.rst = false → s.busy = false → s.host = w :: rest → decode .command w = some i →
    step s = exec i { s with host := rest }

/-- An opcode-table word placed by `withFetchWord` is the one the very next step runs. The way a row is placed is the
model's choice (log 8). -/
def Obligations.StepRunsThePlacedTableWord : Prop :=
  ∀ (s : State) (nbits w : Nat) (i : Instr), decodeTableWord nbits w = some i →
    (i.isCommand = true →
      step (s.withFetchWord nbits w) = exec i { s with rst := false, busy := false, seq := .idle }) ∧
    (i.isCommand = false →
      step (s.withFetchWord nbits w) = exec i { s with rst := false, busy := true, seq := .running i 0 })

/-- A command word of 30_encoding.md R99 is taken, answered `InvalidOperation`, and does nothing else
(decision D2). -/
def Obligations.UnlistedWordsAnswerInvalidOperation : Prop :=
  ∀ (s : State) (w : Word) (rest : List Word),
    s.rst = false → s.busy = false → s.host = w :: rest → unlisted w = true →
    step s = .next (State.rejected 0x50000000 { s with host := rest })

/-- With no command presented an idle block waits; at an event the environment has not ended a busy block waits, for
any number of steps, whatever commands are presented (10_state.md R28, R43; 60_exceptions.md R236). -/
def Obligations.BlockWaitsWithoutCommandOrAnswer : Prop :=
  ∀ (s : State) (n : Nat), s.rst = false →
    ((s.busy = false ∧ s.host = []) ∨ (s.busy = true ∧ ∃ i k, s.seq = .running i (k + 1))) →
    Host.Core.run Sys2Proof.core n s = .next s

/-- The reset input, in any state, also while busy (70_reset_and_hazards.md R260, R261; 10_state.md R43): every piece of
block state at R43's value, no event, no response, the trace empty. What is outside the block stays. The reset is
decision D22; the shape of its input is the model's choice (log 6). -/
def Obligations.ResetInputRestoresTheBlock : Prop :=
  ∀ s : State, s.rst = true → ∃ t, step s = .next t ∧
    (∀ i : Fin 4, t.rc[i] = 0x0000) ∧ t.phase = .uninitialized ∧ t.csN = true ∧ t.lastStatus = 0x00 ∧
    t.lastStatusValid = false ∧ t.seq = .idle ∧ t.busy = false ∧ t.trace = [] ∧ t.responses = s.responses ∧
    t.cfg = s.cfg ∧ t.host = s.host ∧ t.env = s.env ∧ t.draws = s.draws

/-- The reset values of 10_state.md R43, for every choice of the parameters (decision D22 for all but the cache and the
phase). -/
def Obligations.ResetStateHoldsItsValues : Prop :=
  ∀ c : Config, (State.resetWith c).rc = #v[0x0000, 0x0000, 0x0000, 0x0000] ∧
    (State.resetWith c).phase = .uninitialized ∧ (State.resetWith c).csN = true ∧
    (State.resetWith c).lastStatus = 0x00 ∧ (State.resetWith c).lastStatusValid = false ∧
    (State.resetWith c).seq = .idle ∧ (State.resetWith c).busy = false

/-! ### What operations cannot do -/

/-- Every step answers a next state: an error of the block is a response, after which it accepts the next command
(60_exceptions.md R228, R231, R232). -/
def Obligations.EveryStepAnswersANextState : Prop :=
  ∀ s : State, ∃ t, step s = .next t

/-- A host command either gives exactly one response and leaves the block idle with the select line as it was or high,
or is held by the environment: no response, busy, at the event after those it has performed (30_encoding.md R82,
10_state.md R27, R28; 60_exceptions.md R236). -/
def Obligations.CommandsAnswerOnceOrAreHeld : Prop :=
  ∀ (i : Instr) (s t : State), i.isCommand = true → exec i s = .next t →
    ((∃ w, t.responses = s.responses ++ [w]) ∧ t.seq = .idle ∧ t.busy = false ∧ (t.csN = s.csN ∨ t.csN = true)) ∨
    (t.responses = s.responses ∧ t.busy = true ∧
      ∃ n, t.seq = .running i (n + 1) ∧ t.trace.length = s.trace.length + (n + 1) ∧ s.trace <+: t.trace)

/-- A command whose first frame the environment never lets end is held there (60_exceptions.md R236). -/
def Obligations.UnansweredFirstFramesHoldTheBlock : Prop :=
  ∀ s : State,
    (∀ (addr : Byte) (v : Half), addr ∈ s.cfg.validAddrs → s.reply (writeTx addr v) = none →
      heldBy (.writeReg addr v) s) ∧
    (∀ addr : Byte, addr ∈ s.cfg.validAddrs → s.reply (readRequestTx addr) = none → heldBy (.readReg addr) s) ∧
    (∀ k : Fin 16, ∀ c ∈ s.cfg.validRange,
      s.reply (writeTx (s.cfg.aDacRangeBase + BitVec.ofNat 8 (k.val / 4))
        (rangeEncode s.rc[rangeIndex k] k c)) = none →
      heldBy (.setRange (BitVec.ofNat 8 k.val) (c.setWidth 16)) s) ∧
    (∀ (k : Fin 16) (v : Half), s.reply (writeTx (s.cfg.aDacBase + BitVec.ofNat 8 k.val) v) = none →
      heldBy (.setOutput (BitVec.ofNat 8 k.val) v) s) ∧
    (s.reply (writeTx s.cfg.aTrigger s.cfg.trigLdac) = none → heldBy .triggerLdac s) ∧
    (s.reply (writeTx s.cfg.aTrigger s.cfg.trigAlarmReset) = none → heldBy .triggerAlarmReset s) ∧
    (s.reply (writeTx s.cfg.aTrigger s.cfg.trigDefaultsReset) = none → heldBy .triggerDefaultsReset s) ∧
    (s.reply (writeTx s.cfg.aTrigger s.cfg.trigToggle1) = none → heldBy (.triggerToggle 1) s) ∧
    (s.reply (writeTx s.cfg.aTrigger s.cfg.trigToggle2) = none → heldBy (.triggerToggle 2) s) ∧
    (s.reply (writeTx s.cfg.aTrigger s.cfg.trigToggle3) = none → heldBy (.triggerToggle 3) s) ∧
    (∀ (k : Fin 16) (bit : Bool), s.reply (readRequestTx s.cfg.aDacPwdwn) = none →
      heldBy (.setPower (BitVec.ofNat 8 k.val) ((BitVec.ofBool bit).setWidth 16)) s) ∧
    (∀ (k : Fin 16) (bit : Bool), s.reply (readRequestTx s.cfg.aSyncConfig) = none →
      heldBy (.setSync (BitVec.ofNat 8 k.val) ((BitVec.ofBool bit).setWidth 16)) s) ∧
    (∀ (k : Fin 16) (bit : Bool), s.reply (readRequestTx s.cfg.aBrdConfig) = none →
      heldBy (.setBcastEn (BitVec.ofNat 8 k.val) ((BitVec.ofBool bit).setWidth 16)) s) ∧
    (∀ (k : Fin 16) (m : BitVec 2),
      s.reply (readRequestTx (if k.val < 8 then s.cfg.aToggConfig1 else s.cfg.aToggConfig0)) = none →
      heldBy (.setToggleMode (BitVec.ofNat 8 k.val) (m.setWidth 16)) s) ∧
    (s.reply (readRequestTx s.cfg.aDeviceId) = none → heldBy .deviceIdentity s ∧ heldBy .isResponding s) ∧
    (s.reply (writeTx s.cfg.aSpiConfig s.cfg.spiConfigInit) = none → heldBy .init s)

/-- Only SET_RANGE and INIT write the range cache (10_state.md R21). -/
def Obligations.OnlySetRangeAndInitWriteTheCache : Prop :=
  ∀ (i : Instr) (s t : State), exec i s = .next t → i.writesRanges = false → t.rc = s.rc

/-- Only INIT, and only when it answers OK, changes the phase, to Initialized (10_state.md R24). -/
def Obligations.OnlyInitSetsThePhase : Prop :=
  ∀ (i : Instr) (s t : State), exec i s = .next t → t.phase ≠ s.phase →
    i = .init ∧ t.phase = .initialized ∧ t.responses = s.responses ++ [0x00000000]

/-- Only operations with a read transaction write `last_status` or its valid bit, and none clears the bit
(10_state.md R26, R29). -/
def Obligations.OnlyReadsWriteTheLastStatus : Prop :=
  ∀ (i : Instr) (s t : State), exec i s = .next t →
    (i.readsDevice = false → t.lastStatus = s.lastStatus ∧ t.lastStatusValid = s.lastStatusValid) ∧
    (s.lastStatusValid = true → t.lastStatusValid = true)

/-- No step changes the parameters, and no operation touches the host's words or the reset input
(00_scope.md R8; log 3, log 5, log 6 for the fields). -/
def Obligations.ParametersAndInputsAreLeftAlone : Prop :=
  (∀ (i : Instr) (s t : State), exec i s = .next t → t.cfg = s.cfg ∧ t.host = s.host ∧ t.rst = s.rst) ∧
  (∀ s t : State, step s = .next t → t.cfg = s.cfg)

/-- An operation adds to the wire trace and takes nothing away; it adds at most the exchanges of
70_reset_and_hazards.md R279, and a failed exchange only as its last (40_framer.md R126 (f), R125). -/
def Obligations.FramesPerOperationAreBounded : Prop :=
  ∀ (i : Instr) (s t : State), exec i s = .next t → ∃ evs, t.trace = s.trace ++ evs ∧
    (evs.filter Event.isXfer).length ≤ i.frameCount ∧
    ∀ before e after, evs = before ++ e :: after → e.isFailedXfer = true →
      (after.filter Event.isXfer).length = 0

/-! ### Invariants -/

/-- Every step keeps the framing of the wire and of the handshake (40_framer.md R126 (a) to (d), 10_state.md R25,
R28). R126 is marked as the spec's own inference. -/
def Obligations.FramingIsKeptByEveryStep : Prop :=
  ∀ s t : State, s.Framed → step s = .next t → t.Framed

/-- Framing holds at reset, for every choice of the parameters. -/
def Obligations.FramingHoldsAtReset : Prop := ∀ c : Config, (State.resetWith c).Framed

/-- Every step keeps the range cache's fields valid, or zero before INIT has completed (10_state.md R22,
30_encoding.md R91, 44_identity_init.md R204). -/
def Obligations.ValidRangesAreKeptByEveryStep : Prop :=
  ∀ s t : State, s.RangesValid → step s = .next t → t.RangesValid

/-- The range fields are as they should be at reset, for every choice of the parameters. -/
def Obligations.ValidRangesHoldAtReset : Prop :=
  ∀ c : Config, (State.resetWith c).RangesValid

/-- Every step keeps the wire free of frames the block never sends: each exchange is a write to a valid address, a read
request of one, or the dummy bytes (30_encoding.md R100). -/
def Obligations.OnlyAllowedFramesReachTheWire : Prop :=
  ∀ s t : State, s.WireAllowed → step s = .next t → t.WireAllowed

/-- The wire is free of such frames at reset. -/
def Obligations.AllowedFramesHoldAtReset : Prop := ∀ c : Config, (State.resetWith c).WireAllowed

/-- Coherence of the cache over a session (20_memory.md R67): "after a successful SET_RANGE(ch, r) every later
GET_RANGE(ch) returns `r` until the next successful SET_RANGE(ch, ·) or INIT". `t` is the state the successful SET_RANGE
leaves; `u` any state that steps reach from it while the host presents neither a SET_RANGE of the channel nor INIT and
reset is not asserted. The rule marks the property as the spec's own inference. -/
def Obligations.CacheStaysCoherentOverASession : Prop :=
  ∀ (n : Nat) (s t u : State) (k : Fin 16) (code : Half),
    exec (.setRange (BitVec.ofNat 8 k.val) code) s = .next t → t.responses = s.responses ++ [0x00000000] →
    t.RangeQuiet k → Host.Core.run Sys2Proof.core n t = .next u →
    exec (.getRange (BitVec.ofNat 8 k.val)) u = .next (u.completed [] (0#16 ++ code))

/-- Coherence of the cache as an invariant of the step (20_memory.md R67): if the cache holds a code for a channel and
neither a SET_RANGE of the channel nor INIT is in progress or presented, and reset is not asserted, then so after any
step. The rule marks the property as the spec's own inference. -/
def Obligations.RangeFieldIsHeldByEveryStep : Prop :=
  ∀ (s t : State) (k : Fin 16) (code : RawRange), s.RangeHeld k code → step s = .next t → t.RangeHeld k code

/-- At reset every channel's field of the cache holds 0 (10_state.md R22, R43) and nothing that may write it is in
progress or presented, for every choice of the parameters. That nothing is presented is the model's choice (log 5). -/
def Obligations.RangeFieldIsHeldAtReset : Prop :=
  ∀ (c : Config) (k : Fin 16), (State.resetWith c).RangeHeld k 0
end

