-- ==== Sys2Proof/Laws/State.lean ====
section
/-! SUPPORT. One lemma per field per update of the state, each true by definition, so that no later proof unfolds a
record update. -/

namespace Sys2Proof.Machine

/-! ### `emit` -/

@[simp] theorem State.emit_rc (e : Event) (s : State) : (s.emit e).rc = s.rc := rfl
@[simp] theorem State.emit_phase (e : Event) (s : State) : (s.emit e).phase = s.phase := rfl
@[simp] theorem State.emit_csN (e : Event) (s : State) : (s.emit e).csN = s.csN := rfl
@[simp] theorem State.emit_lastStatus (e : Event) (s : State) : (s.emit e).lastStatus = s.lastStatus := rfl
@[simp] theorem State.emit_lastStatusValid (e : Event) (s : State) : (s.emit e).lastStatusValid = s.lastStatusValid := rfl
@[simp] theorem State.emit_seq (e : Event) (s : State) : (s.emit e).seq = s.seq.advance := rfl
@[simp] theorem State.emit_busy (e : Event) (s : State) : (s.emit e).busy = s.busy := rfl
@[simp] theorem State.emit_cfg (e : Event) (s : State) : (s.emit e).cfg = s.cfg := rfl
@[simp] theorem State.emit_trace (e : Event) (s : State) : (s.emit e).trace = s.trace ++ [e] := rfl
@[simp] theorem State.emit_responses (e : Event) (s : State) : (s.emit e).responses = s.responses := rfl
@[simp] theorem State.emit_host (e : Event) (s : State) : (s.emit e).host = s.host := rfl
@[simp] theorem State.emit_rst (e : Event) (s : State) : (s.emit e).rst = s.rst := rfl
@[simp] theorem State.emit_env (e : Event) (s : State) : (s.emit e).env = s.env := rfl
@[simp] theorem State.emit_draws (e : Event) (s : State) : (s.emit e).draws = s.draws := rfl

/-! ### `driveCs` -/

@[simp] theorem State.driveCs_rc (l : Bool) (s : State) : (s.driveCs l).rc = s.rc := rfl
@[simp] theorem State.driveCs_phase (l : Bool) (s : State) : (s.driveCs l).phase = s.phase := rfl
@[simp] theorem State.driveCs_csN (l : Bool) (s : State) : (s.driveCs l).csN = l := rfl
@[simp] theorem State.driveCs_lastStatus (l : Bool) (s : State) : (s.driveCs l).lastStatus = s.lastStatus := rfl
@[simp] theorem State.driveCs_lastStatusValid (l : Bool) (s : State) : (s.driveCs l).lastStatusValid = s.lastStatusValid := rfl
@[simp] theorem State.driveCs_seq (l : Bool) (s : State) : (s.driveCs l).seq = s.seq.advance := rfl
@[simp] theorem State.driveCs_busy (l : Bool) (s : State) : (s.driveCs l).busy = s.busy := rfl
@[simp] theorem State.driveCs_cfg (l : Bool) (s : State) : (s.driveCs l).cfg = s.cfg := rfl
@[simp] theorem State.driveCs_trace (l : Bool) (s : State) : (s.driveCs l).trace = s.trace ++ [.cs l] := rfl
@[simp] theorem State.driveCs_responses (l : Bool) (s : State) : (s.driveCs l).responses = s.responses := rfl
@[simp] theorem State.driveCs_host (l : Bool) (s : State) : (s.driveCs l).host = s.host := rfl
@[simp] theorem State.driveCs_rst (l : Bool) (s : State) : (s.driveCs l).rst = s.rst := rfl
@[simp] theorem State.driveCs_env (l : Bool) (s : State) : (s.driveCs l).env = s.env := rfl
@[simp] theorem State.driveCs_draws (l : Bool) (s : State) : (s.driveCs l).draws = s.draws := rfl

/-! ### `useTurn` -/

@[simp] theorem State.useTurn_rc (s : State) : (s.useTurn).rc = s.rc := rfl
@[simp] theorem State.useTurn_phase (s : State) : (s.useTurn).phase = s.phase := rfl
@[simp] theorem State.useTurn_csN (s : State) : (s.useTurn).csN = s.csN := rfl
@[simp] theorem State.useTurn_lastStatus (s : State) : (s.useTurn).lastStatus = s.lastStatus := rfl
@[simp] theorem State.useTurn_lastStatusValid (s : State) : (s.useTurn).lastStatusValid = s.lastStatusValid := rfl
@[simp] theorem State.useTurn_seq (s : State) : (s.useTurn).seq = s.seq := rfl
@[simp] theorem State.useTurn_busy (s : State) : (s.useTurn).busy = s.busy := rfl
@[simp] theorem State.useTurn_cfg (s : State) : (s.useTurn).cfg = s.cfg := rfl
@[simp] theorem State.useTurn_trace (s : State) : (s.useTurn).trace = s.trace := rfl
@[simp] theorem State.useTurn_responses (s : State) : (s.useTurn).responses = s.responses := rfl
@[simp] theorem State.useTurn_host (s : State) : (s.useTurn).host = s.host := rfl
@[simp] theorem State.useTurn_rst (s : State) : (s.useTurn).rst = s.rst := rfl
@[simp] theorem State.useTurn_env (s : State) : (s.useTurn).env = s.env.tail := rfl
@[simp] theorem State.useTurn_draws (s : State) : (s.useTurn).draws = s.draws + (if s.env.isEmpty then 1 else 0) := rfl

/-! ### `accept` -/

@[simp] theorem State.accept_rc (i : Instr) (s : State) : (s.accept i).rc = s.rc := rfl
@[simp] theorem State.accept_phase (i : Instr) (s : State) : (s.accept i).phase = s.phase := rfl
@[simp] theorem State.accept_csN (i : Instr) (s : State) : (s.accept i).csN = s.csN := rfl
@[simp] theorem State.accept_lastStatus (i : Instr) (s : State) : (s.accept i).lastStatus = s.lastStatus := rfl
@[simp] theorem State.accept_lastStatusValid (i : Instr) (s : State) : (s.accept i).lastStatusValid = s.lastStatusValid := rfl
@[simp] theorem State.accept_seq (i : Instr) (s : State) : (s.accept i).seq = .running i 0 := rfl
@[simp] theorem State.accept_busy (i : Instr) (s : State) : (s.accept i).busy = true := rfl
@[simp] theorem State.accept_cfg (i : Instr) (s : State) : (s.accept i).cfg = s.cfg := rfl
@[simp] theorem State.accept_trace (i : Instr) (s : State) : (s.accept i).trace = s.trace := rfl
@[simp] theorem State.accept_responses (i : Instr) (s : State) : (s.accept i).responses = s.responses := rfl
@[simp] theorem State.accept_host (i : Instr) (s : State) : (s.accept i).host = s.host := rfl
@[simp] theorem State.accept_rst (i : Instr) (s : State) : (s.accept i).rst = s.rst := rfl
@[simp] theorem State.accept_env (i : Instr) (s : State) : (s.accept i).env = s.env := rfl
@[simp] theorem State.accept_draws (i : Instr) (s : State) : (s.accept i).draws = s.draws := rfl

/-! ### `settle` -/

@[simp] theorem State.settle_rc (s : State) : (s.settle).rc = s.rc := rfl
@[simp] theorem State.settle_phase (s : State) : (s.settle).phase = s.phase := rfl
@[simp] theorem State.settle_csN (s : State) : (s.settle).csN = s.csN := rfl
@[simp] theorem State.settle_lastStatus (s : State) : (s.settle).lastStatus = s.lastStatus := rfl
@[simp] theorem State.settle_lastStatusValid (s : State) : (s.settle).lastStatusValid = s.lastStatusValid := rfl
@[simp] theorem State.settle_seq (s : State) : (s.settle).seq = .idle := rfl
@[simp] theorem State.settle_busy (s : State) : (s.settle).busy = false := rfl
@[simp] theorem State.settle_cfg (s : State) : (s.settle).cfg = s.cfg := rfl
@[simp] theorem State.settle_trace (s : State) : (s.settle).trace = s.trace := rfl
@[simp] theorem State.settle_responses (s : State) : (s.settle).responses = s.responses := rfl
@[simp] theorem State.settle_host (s : State) : (s.settle).host = s.host := rfl
@[simp] theorem State.settle_rst (s : State) : (s.settle).rst = s.rst := rfl
@[simp] theorem State.settle_env (s : State) : (s.settle).env = s.env := rfl
@[simp] theorem State.settle_draws (s : State) : (s.settle).draws = s.draws := rfl

/-! ### `respond` -/

@[simp] theorem State.respond_rc (w : Word) (s : State) : (s.respond w).rc = s.rc := rfl
@[simp] theorem State.respond_phase (w : Word) (s : State) : (s.respond w).phase = s.phase := rfl
@[simp] theorem State.respond_csN (w : Word) (s : State) : (s.respond w).csN = s.csN := rfl
@[simp] theorem State.respond_lastStatus (w : Word) (s : State) : (s.respond w).lastStatus = s.lastStatus := rfl
@[simp] theorem State.respond_lastStatusValid (w : Word) (s : State) : (s.respond w).lastStatusValid = s.lastStatusValid := rfl
@[simp] theorem State.respond_seq (w : Word) (s : State) : (s.respond w).seq = .idle := rfl
@[simp] theorem State.respond_busy (w : Word) (s : State) : (s.respond w).busy = false := rfl
@[simp] theorem State.respond_cfg (w : Word) (s : State) : (s.respond w).cfg = s.cfg := rfl
@[simp] theorem State.respond_trace (w : Word) (s : State) : (s.respond w).trace = s.trace := rfl
@[simp] theorem State.respond_responses (w : Word) (s : State) : (s.respond w).responses = s.responses ++ [w] := rfl
@[simp] theorem State.respond_host (w : Word) (s : State) : (s.respond w).host = s.host := rfl
@[simp] theorem State.respond_rst (w : Word) (s : State) : (s.respond w).rst = s.rst := rfl
@[simp] theorem State.respond_env (w : Word) (s : State) : (s.respond w).env = s.env := rfl
@[simp] theorem State.respond_draws (w : Word) (s : State) : (s.respond w).draws = s.draws := rfl

/-! ### `raise` -/

@[simp] theorem State.raise_rc (e : ErrorCode) (s : State) : (s.raise e).rc = s.rc := rfl
@[simp] theorem State.raise_phase (e : ErrorCode) (s : State) : (s.raise e).phase = s.phase := rfl
@[simp] theorem State.raise_csN (e : ErrorCode) (s : State) : (s.raise e).csN = s.csN := rfl
@[simp] theorem State.raise_lastStatus (e : ErrorCode) (s : State) : (s.raise e).lastStatus = s.lastStatus := rfl
@[simp] theorem State.raise_lastStatusValid (e : ErrorCode) (s : State) : (s.raise e).lastStatusValid = s.lastStatusValid := rfl
@[simp] theorem State.raise_seq (e : ErrorCode) (s : State) : (s.raise e).seq = .idle := rfl
@[simp] theorem State.raise_busy (e : ErrorCode) (s : State) : (s.raise e).busy = false := rfl
@[simp] theorem State.raise_cfg (e : ErrorCode) (s : State) : (s.raise e).cfg = s.cfg := rfl
@[simp] theorem State.raise_trace (e : ErrorCode) (s : State) : (s.raise e).trace = s.trace := rfl
@[simp] theorem State.raise_responses (e : ErrorCode) (s : State) : (s.raise e).responses = s.responses ++ [responseOf e 0 0] := rfl
@[simp] theorem State.raise_host (e : ErrorCode) (s : State) : (s.raise e).host = s.host := rfl
@[simp] theorem State.raise_rst (e : ErrorCode) (s : State) : (s.raise e).rst = s.rst := rfl
@[simp] theorem State.raise_env (e : ErrorCode) (s : State) : (s.raise e).env = s.env := rfl
@[simp] theorem State.raise_draws (e : ErrorCode) (s : State) : (s.raise e).draws = s.draws := rfl

/-! ### `latchStatus` -/

@[simp] theorem State.latchStatus_rc (b : Byte) (s : State) : (s.latchStatus b).rc = s.rc := rfl
@[simp] theorem State.latchStatus_phase (b : Byte) (s : State) : (s.latchStatus b).phase = s.phase := rfl
@[simp] theorem State.latchStatus_csN (b : Byte) (s : State) : (s.latchStatus b).csN = s.csN := rfl
@[simp] theorem State.latchStatus_lastStatus (b : Byte) (s : State) : (s.latchStatus b).lastStatus = b := rfl
@[simp] theorem State.latchStatus_lastStatusValid (b : Byte) (s : State) : (s.latchStatus b).lastStatusValid = true := rfl
@[simp] theorem State.latchStatus_seq (b : Byte) (s : State) : (s.latchStatus b).seq = s.seq := rfl
@[simp] theorem State.latchStatus_busy (b : Byte) (s : State) : (s.latchStatus b).busy = s.busy := rfl
@[simp] theorem State.latchStatus_cfg (b : Byte) (s : State) : (s.latchStatus b).cfg = s.cfg := rfl
@[simp] theorem State.latchStatus_trace (b : Byte) (s : State) : (s.latchStatus b).trace = s.trace := rfl
@[simp] theorem State.latchStatus_responses (b : Byte) (s : State) : (s.latchStatus b).responses = s.responses := rfl
@[simp] theorem State.latchStatus_host (b : Byte) (s : State) : (s.latchStatus b).host = s.host := rfl
@[simp] theorem State.latchStatus_rst (b : Byte) (s : State) : (s.latchStatus b).rst = s.rst := rfl
@[simp] theorem State.latchStatus_env (b : Byte) (s : State) : (s.latchStatus b).env = s.env := rfl
@[simp] theorem State.latchStatus_draws (b : Byte) (s : State) : (s.latchStatus b).draws = s.draws := rfl

/-! ### `setInitialized` -/

@[simp] theorem State.setInitialized_rc (s : State) : (s.setInitialized).rc = s.rc := rfl
@[simp] theorem State.setInitialized_phase (s : State) : (s.setInitialized).phase = .initialized := rfl
@[simp] theorem State.setInitialized_csN (s : State) : (s.setInitialized).csN = s.csN := rfl
@[simp] theorem State.setInitialized_lastStatus (s : State) : (s.setInitialized).lastStatus = s.lastStatus := rfl
@[simp] theorem State.setInitialized_lastStatusValid (s : State) : (s.setInitialized).lastStatusValid = s.lastStatusValid := rfl
@[simp] theorem State.setInitialized_seq (s : State) : (s.setInitialized).seq = s.seq := rfl
@[simp] theorem State.setInitialized_busy (s : State) : (s.setInitialized).busy = s.busy := rfl
@[simp] theorem State.setInitialized_cfg (s : State) : (s.setInitialized).cfg = s.cfg := rfl
@[simp] theorem State.setInitialized_trace (s : State) : (s.setInitialized).trace = s.trace := rfl
@[simp] theorem State.setInitialized_responses (s : State) : (s.setInitialized).responses = s.responses := rfl
@[simp] theorem State.setInitialized_host (s : State) : (s.setInitialized).host = s.host := rfl
@[simp] theorem State.setInitialized_rst (s : State) : (s.setInitialized).rst = s.rst := rfl
@[simp] theorem State.setInitialized_env (s : State) : (s.setInitialized).env = s.env := rfl
@[simp] theorem State.setInitialized_draws (s : State) : (s.setInitialized).draws = s.draws := rfl

/-! ### `writeRC` -/

@[simp] theorem State.writeRC_rc (i : Fin 4) (w : Half) (s : State) : (s.writeRC i w).rc = s.rc.set i w := rfl
@[simp] theorem State.writeRC_phase (i : Fin 4) (w : Half) (s : State) : (s.writeRC i w).phase = s.phase := rfl
@[simp] theorem State.writeRC_csN (i : Fin 4) (w : Half) (s : State) : (s.writeRC i w).csN = s.csN := rfl
@[simp] theorem State.writeRC_lastStatus (i : Fin 4) (w : Half) (s : State) : (s.writeRC i w).lastStatus = s.lastStatus := rfl
@[simp] theorem State.writeRC_lastStatusValid (i : Fin 4) (w : Half) (s : State) : (s.writeRC i w).lastStatusValid = s.lastStatusValid := rfl
@[simp] theorem State.writeRC_seq (i : Fin 4) (w : Half) (s : State) : (s.writeRC i w).seq = s.seq := rfl
@[simp] theorem State.writeRC_busy (i : Fin 4) (w : Half) (s : State) : (s.writeRC i w).busy = s.busy := rfl
@[simp] theorem State.writeRC_cfg (i : Fin 4) (w : Half) (s : State) : (s.writeRC i w).cfg = s.cfg := rfl
@[simp] theorem State.writeRC_trace (i : Fin 4) (w : Half) (s : State) : (s.writeRC i w).trace = s.trace := rfl
@[simp] theorem State.writeRC_responses (i : Fin 4) (w : Half) (s : State) : (s.writeRC i w).responses = s.responses := rfl
@[simp] theorem State.writeRC_host (i : Fin 4) (w : Half) (s : State) : (s.writeRC i w).host = s.host := rfl
@[simp] theorem State.writeRC_rst (i : Fin 4) (w : Half) (s : State) : (s.writeRC i w).rst = s.rst := rfl
@[simp] theorem State.writeRC_env (i : Fin 4) (w : Half) (s : State) : (s.writeRC i w).env = s.env := rfl
@[simp] theorem State.writeRC_draws (i : Fin 4) (w : Half) (s : State) : (s.writeRC i w).draws = s.draws := rfl

/-! ### `blockReset` -/

@[simp] theorem State.blockReset_rc (s : State) : (s.blockReset).rc = #v[0x0000, 0x0000, 0x0000, 0x0000] := rfl
@[simp] theorem State.blockReset_phase (s : State) : (s.blockReset).phase = .uninitialized := rfl
@[simp] theorem State.blockReset_csN (s : State) : (s.blockReset).csN = true := rfl
@[simp] theorem State.blockReset_lastStatus (s : State) : (s.blockReset).lastStatus = 0x00 := rfl
@[simp] theorem State.blockReset_lastStatusValid (s : State) : (s.blockReset).lastStatusValid = false := rfl
@[simp] theorem State.blockReset_seq (s : State) : (s.blockReset).seq = .idle := rfl
@[simp] theorem State.blockReset_busy (s : State) : (s.blockReset).busy = false := rfl
@[simp] theorem State.blockReset_cfg (s : State) : (s.blockReset).cfg = s.cfg := rfl
@[simp] theorem State.blockReset_trace (s : State) : (s.blockReset).trace = [] := rfl
@[simp] theorem State.blockReset_responses (s : State) : (s.blockReset).responses = s.responses := rfl
@[simp] theorem State.blockReset_host (s : State) : (s.blockReset).host = s.host := rfl
@[simp] theorem State.blockReset_rst (s : State) : (s.blockReset).rst = false := rfl
@[simp] theorem State.blockReset_env (s : State) : (s.blockReset).env = s.env := rfl
@[simp] theorem State.blockReset_draws (s : State) : (s.blockReset).draws = s.draws := rfl

/-! ### The range cache by word -/

@[simp] theorem State.readRC_emit (k : Fin 4) (e : Event) (s : State) : (s.emit e).readRC k = s.readRC k := rfl
@[simp] theorem State.readRC_driveCs (k : Fin 4) (l : Bool) (s : State) : (s.driveCs l).readRC k = s.readRC k := rfl
@[simp] theorem State.readRC_useTurn (k : Fin 4) (s : State) : (s.useTurn).readRC k = s.readRC k := rfl
@[simp] theorem State.readRC_accept (k : Fin 4) (i : Instr) (s : State) : (s.accept i).readRC k = s.readRC k := rfl
@[simp] theorem State.readRC_settle (k : Fin 4) (s : State) : (s.settle).readRC k = s.readRC k := rfl
@[simp] theorem State.readRC_respond (k : Fin 4) (w : Word) (s : State) : (s.respond w).readRC k = s.readRC k := rfl
@[simp] theorem State.readRC_raise (k : Fin 4) (e : ErrorCode) (s : State) : (s.raise e).readRC k = s.readRC k := rfl
@[simp] theorem State.readRC_latchStatus (k : Fin 4) (b : Byte) (s : State) : (s.latchStatus b).readRC k = s.readRC k := rfl
@[simp] theorem State.readRC_setInitialized (k : Fin 4) (s : State) : (s.setInitialized).readRC k = s.readRC k := rfl

@[simp] theorem State.readRC_writeRC_self (k : Fin 4) (w : Half) (s : State) : (s.writeRC k w).readRC k = w := by
  simp [State.readRC, State.writeRC]

theorem State.readRC_writeRC_ne {j k : Fin 4} (h : j ≠ k) (w : Half) (s : State) :
    (s.writeRC k w).readRC j = s.readRC j := by
  have hv : k.val ≠ j.val := fun e => h (Fin.ext e.symm)
  simp [State.readRC, State.writeRC, Vector.getElem_set_ne, hv]

end Sys2Proof.Machine
end

