-- ==== Sys2Proof/Laws/Ops.lean ====
section
/-! SUPPORT. What each shared operation of Machine/Ops.lean can do, said once: the equations of the transport under an
answering environment, and the relation `Run.Within` that bounds what any piece of an operation does to the wire. -/

namespace Sys2Proof.Machine

/-! ### Runs -/

@[simp] theorem Run.bind_done {α β : Type} (a : α) (s : State) (f : α → State → Run β) :
    (Run.done a s).bind f = f a s := rfl

@[simp] theorem Run.bind_raised {α β : Type} (e : ErrorCode) (s : State) (f : α → State → Run β) :
    (Run.raised e s : Run α).bind f = .raised e s := rfl

@[simp] theorem Run.bind_hung {α β : Type} (s : State) (f : α → State → Run β) :
    (Run.hung s : Run α).bind f = .hung s := rfl

@[simp] theorem require_some {α : Type} (e : ErrorCode) (a : α) (s : State) :
    require e (some a) s = .done a s := rfl

@[simp] theorem require_none {α : Type} (e : ErrorCode) (s : State) :
    require e (none : Option α) s = .raised e s := rfl

@[simp] theorem Run.conclude_done (a : Byte × Half) (s : State) :
    (Run.done a s).conclude = s.respond (responseOf .ok a.1 a.2) := rfl

@[simp] theorem Run.conclude_raised (e : ErrorCode) (s : State) :
    (Run.raised e s).conclude = s.raise e := rfl

@[simp] theorem Run.conclude_hung (s : State) : (Run.hung s).conclude = s := rfl

@[simp] theorem Run.settled_done {α : Type} (a : α) (s : State) : (Run.done a s).settled = s.settle := rfl

@[simp] theorem Run.settled_raised {α : Type} (e : ErrorCode) (s : State) :
    (Run.raised e s : Run α).settled = s.settle := rfl

@[simp] theorem Run.settled_hung {α : Type} (s : State) : (Run.hung s : Run α).settled = s := rfl

/-! ### The sequencer position -/

/-- The sequencer advances by several events. -/
def Seq.advanceBy : Nat → Seq → Seq
  | _, .idle => .idle
  | n, .running i k => .running i (k + n)

@[simp] theorem Seq.advanceBy_idle (n : Nat) : Seq.idle.advanceBy n = .idle := by cases n <;> rfl

@[simp] theorem Seq.advanceBy_running (n k : Nat) (i : Instr) :
    (Seq.running i k).advanceBy n = .running i (k + n) := by cases n <;> rfl

@[simp] theorem Seq.advanceBy_zero (q : Seq) : q.advanceBy 0 = q := by cases q <;> rfl

@[simp] theorem Seq.advance_advanceBy (n : Nat) (q : Seq) : q.advance.advanceBy n = q.advanceBy (n + 1) := by
  cases q
  · simp [Seq.advance]
  · simp only [Seq.advance, Seq.advanceBy_running]; congr 1; omega

@[simp] theorem Seq.advanceBy_advance (n : Nat) (q : Seq) : (q.advanceBy n).advance = q.advanceBy (n + 1) := by
  cases q <;> simp [Seq.advance]; rfl

theorem Seq.advance_eq (q : Seq) : q.advance = q.advanceBy 1 := by cases q <;> rfl

@[simp] theorem Seq.advanceBy_advanceBy (m n : Nat) (q : Seq) :
    (q.advanceBy m).advanceBy n = q.advanceBy (m + n) := by
  cases q <;> simp [Nat.add_assoc]

/-! ### Frames -/

/-- The state after a complete frame transaction. -/
def State.afterFrame (tx : Bytes3) (r : XferResult) (s : State) : State :=
  { s.useTurn with
    trace := s.trace ++ frameEvents s.cfg tx r
    csN := true
    seq := s.seq.advanceBy (frameEvents s.cfg tx r).length }

/-- The state at an event the environment never ends: `evs` are the events performed, `l` where the wire stands. -/
def State.heldAt (evs : List Event) (l : Line) (s : State) : State :=
  { s.useTurn with
    trace := s.trace ++ evs
    csN := l.level
    seq := s.seq.advanceBy evs.length }

@[simp] theorem State.afterFrame_rc (tx : Bytes3) (r : XferResult) (s : State) :
    (s.afterFrame tx r).rc = s.rc := rfl
@[simp] theorem State.afterFrame_phase (tx : Bytes3) (r : XferResult) (s : State) :
    (s.afterFrame tx r).phase = s.phase := rfl
@[simp] theorem State.afterFrame_csN (tx : Bytes3) (r : XferResult) (s : State) :
    (s.afterFrame tx r).csN = true := rfl
@[simp] theorem State.afterFrame_lastStatus (tx : Bytes3) (r : XferResult) (s : State) :
    (s.afterFrame tx r).lastStatus = s.lastStatus := rfl
@[simp] theorem State.afterFrame_lastStatusValid (tx : Bytes3) (r : XferResult) (s : State) :
    (s.afterFrame tx r).lastStatusValid = s.lastStatusValid := rfl
@[simp] theorem State.afterFrame_seq (tx : Bytes3) (r : XferResult) (s : State) :
    (s.afterFrame tx r).seq = s.seq.advanceBy (frameEvents s.cfg tx r).length := rfl
@[simp] theorem State.afterFrame_busy (tx : Bytes3) (r : XferResult) (s : State) :
    (s.afterFrame tx r).busy = s.busy := rfl
@[simp] theorem State.afterFrame_cfg (tx : Bytes3) (r : XferResult) (s : State) :
    (s.afterFrame tx r).cfg = s.cfg := rfl
@[simp] theorem State.afterFrame_trace (tx : Bytes3) (r : XferResult) (s : State) :
    (s.afterFrame tx r).trace = s.trace ++ frameEvents s.cfg tx r := rfl
@[simp] theorem State.afterFrame_responses (tx : Bytes3) (r : XferResult) (s : State) :
    (s.afterFrame tx r).responses = s.responses := rfl
@[simp] theorem State.afterFrame_host (tx : Bytes3) (r : XferResult) (s : State) :
    (s.afterFrame tx r).host = s.host := rfl
@[simp] theorem State.afterFrame_rst (tx : Bytes3) (r : XferResult) (s : State) :
    (s.afterFrame tx r).rst = s.rst := rfl
@[simp] theorem State.afterFrame_env (tx : Bytes3) (r : XferResult) (s : State) :
    (s.afterFrame tx r).env = s.env.tail := rfl
@[simp] theorem State.afterFrame_draws (tx : Bytes3) (r : XferResult) (s : State) :
    (s.afterFrame tx r).draws = s.draws + (if s.env.isEmpty then 1 else 0) := rfl
@[simp] theorem State.heldAt_rc (evs : List Event) (l : Line) (s : State) :
    (s.heldAt evs l).rc = s.rc := rfl
@[simp] theorem State.heldAt_phase (evs : List Event) (l : Line) (s : State) :
    (s.heldAt evs l).phase = s.phase := rfl
@[simp] theorem State.heldAt_csN (evs : List Event) (l : Line) (s : State) :
    (s.heldAt evs l).csN = l.level := rfl
@[simp] theorem State.heldAt_lastStatus (evs : List Event) (l : Line) (s : State) :
    (s.heldAt evs l).lastStatus = s.lastStatus := rfl
@[simp] theorem State.heldAt_lastStatusValid (evs : List Event) (l : Line) (s : State) :
    (s.heldAt evs l).lastStatusValid = s.lastStatusValid := rfl
@[simp] theorem State.heldAt_seq (evs : List Event) (l : Line) (s : State) :
    (s.heldAt evs l).seq = s.seq.advanceBy evs.length := rfl
@[simp] theorem State.heldAt_busy (evs : List Event) (l : Line) (s : State) :
    (s.heldAt evs l).busy = s.busy := rfl
@[simp] theorem State.heldAt_cfg (evs : List Event) (l : Line) (s : State) :
    (s.heldAt evs l).cfg = s.cfg := rfl
@[simp] theorem State.heldAt_trace (evs : List Event) (l : Line) (s : State) :
    (s.heldAt evs l).trace = s.trace ++ evs := rfl
@[simp] theorem State.heldAt_responses (evs : List Event) (l : Line) (s : State) :
    (s.heldAt evs l).responses = s.responses := rfl
@[simp] theorem State.heldAt_host (evs : List Event) (l : Line) (s : State) :
    (s.heldAt evs l).host = s.host := rfl
@[simp] theorem State.heldAt_rst (evs : List Event) (l : Line) (s : State) :
    (s.heldAt evs l).rst = s.rst := rfl
@[simp] theorem State.heldAt_env (evs : List Event) (l : Line) (s : State) :
    (s.heldAt evs l).env = s.env.tail := rfl
@[simp] theorem State.heldAt_draws (evs : List Event) (l : Line) (s : State) :
    (s.heldAt evs l).draws = s.draws + (if s.env.isEmpty then 1 else 0) := rfl

@[simp] theorem State.readRC_afterFrame (k : Fin 4) (tx : Bytes3) (r : XferResult) (s : State) :
    (s.afterFrame tx r).readRC k = s.readRC k := rfl
@[simp] theorem State.readRC_heldAt (k : Fin 4) (evs : List Event) (l : Line) (s : State) :
    (s.heldAt evs l).readRC k = s.readRC k := rfl

@[simp] theorem wait_zero (h : Bool) (s : State) : wait 0 h s = .done () s := by simp [wait]

/-- A wait that ends adds its events, if any. -/
theorem wait_ends (d : Nat) (s : State) :
    wait d false s =
      .done () { s with trace := s.trace ++ waitEvents d, seq := s.seq.advanceBy (waitEvents d).length } := by
  by_cases hd : d = 0
  · simp [wait, hd, waitEvents]
  · simp [wait, hd, waitEvents, State.emit, Seq.advance_eq]

/-- A wait of nonzero length that the environment never ends. -/
theorem wait_hangs {d : Nat} (hd : d ≠ 0) (s : State) : wait d true s = .hung s := by simp [wait, hd]

@[simp] theorem Event.isXfer_cs (b : Bool) : (Event.cs b).isXfer = false := rfl
@[simp] theorem Event.isXfer_xfer (tx : Bytes3) (r : XferResult) : (Event.xfer tx r).isXfer = true := rfl
@[simp] theorem Event.isXfer_wait (d : Nat) : (Event.wait d).isXfer = false := rfl

/-- An answered frame transaction: its events in order, the select line high at the end (40_framer.md R120). -/
theorem frame_answered {tx : Bytes3} {r : XferResult} {s : State} (h : s.reply tx = some r) :
    frame tx s = .done r (s.afterFrame tx r) := by
  have key : ∀ t : Turn, t = s.nextTurn tx → frameEventsRun tx t s.useTurn = .done r (s.afterFrame tx r) := by
    intro t ht
    rw [State.reply, ← ht] at h
    obtain ⟨a, st⟩ := t
    cases st with
    | none =>
      simp only [Option.some.injEq] at h
      subst h
      simp [frameEventsRun, wait_ends, xfer, State.afterFrame, frameEvents, State.driveCs, State.emit,
        Nat.add_assoc, Nat.add_comm, Nat.add_left_comm]
    | some st =>
      cases st <;> simp only at h
      · split at h <;> simp_all [frameEventsRun, wait_ends, xfer, State.afterFrame, frameEvents, State.driveCs,
          State.emit, Nat.add_comm, Nat.add_left_comm, waitEvents]
      · simp at h
      · split at h <;> simp_all [frameEventsRun, wait_ends, xfer, State.afterFrame, frameEvents, State.driveCs,
          State.emit, Nat.add_assoc, Nat.add_comm, Nat.add_left_comm, waitEvents]
      · split at h <;> simp_all [frameEventsRun, wait_ends, xfer, State.afterFrame, frameEvents, State.driveCs,
          State.emit, Nat.add_comm, Nat.add_left_comm, waitEvents]
  exact key _ rfl

@[simp] theorem State.reply_accept (tx : Bytes3) (i : Instr) (s : State) :
    (s.accept i).reply tx = s.reply tx := rfl

@[simp] theorem State.reply_afterFrame (tx tx' : Bytes3) (r : XferResult) (s : State) :
    (s.afterFrame tx' r).reply tx = s.useTurn.reply tx := rfl

@[simp] theorem State.reply_latchStatus (tx : Bytes3) (b : Byte) (s : State) :
    (s.latchStatus b).reply tx = s.reply tx := rfl

@[simp] theorem State.reply_writeRC (tx : Bytes3) (i : Fin 4) (w : Half) (s : State) :
    (s.writeRC i w).reply tx = s.reply tx := rfl

@[simp] theorem State.reply_useTurn_afterFrame (tx tx' : Bytes3) (r : XferResult) (s : State) :
    (s.afterFrame tx' r).useTurn.reply tx = s.useTurn.useTurn.reply tx := rfl

/-- The part of a frame transaction that is performed before an event the environment never ends. -/
structure HeldPart (c : Config) (tx : Bytes3) (evs : List Event) (l : Line) : Prop where
  line : Line.after c .rest evs = some l
  holds : l.holds = true
  began : evs ≠ []
  xfers : ∀ tx' r, Event.xfer tx' r ∈ evs → tx' = tx
  once : (evs.filter Event.isXfer).length ≤ 1

/-- A frame transaction with an event that never ends stops at a wait or at the exchange (60_exceptions.md R236). -/
theorem frame_held {tx : Bytes3} {s : State} (h : s.reply tx = none) :
    ∃ evs l, HeldPart s.cfg tx evs l ∧ frame tx s = .hung (s.heldAt evs l) := by
  have key : ∀ t : Turn, t = s.nextTurn tx →
      ∃ evs l, HeldPart s.cfg tx evs l ∧ frameEventsRun tx t s.useTurn = .hung (s.heldAt evs l) := by
    intro t ht
    rw [State.reply, ← ht] at h
    obtain ⟨a, st⟩ := t
    cases st with
    | none => simp at h
    | some st =>
      cases st <;> simp only at h
      · have hp : s.cfg.tPre ≠ 0 := by intro h0; simp [h0] at h
        refine ⟨[.cs false], .selected, ⟨?_, rfl, by simp, by simp, by simp⟩, ?_⟩
        · simp [Line.after, Line.next, hp]
        · simp [frameEventsRun, wait_hangs hp, State.heldAt, State.driveCs, State.emit, Line.level, Seq.advance_eq]
      · refine ⟨[.cs false] ++ waitEvents s.cfg.tPre, .ready, ⟨?_, rfl, by simp, ?_, ?_⟩, ?_⟩
        · by_cases hp : s.cfg.tPre = 0 <;> simp [Line.after, Line.next, hp, waitEvents]
        · intro tx' r hm; by_cases hp : s.cfg.tPre = 0 <;> simp [hp, waitEvents] at hm
        · by_cases hp : s.cfg.tPre = 0 <;> simp [hp, waitEvents]
        · simp [frameEventsRun, wait_ends, xfer, State.heldAt, State.driveCs, State.emit, Line.level,
            Nat.add_comm]
      · have hg : s.cfg.tGuard ≠ 0 := by intro h0; simp [h0] at h
        refine ⟨[.cs false] ++ waitEvents s.cfg.tPre ++ [.xfer tx a], .exchanged, ⟨?_, rfl, by simp, ?_, ?_⟩, ?_⟩
        · by_cases hp : s.cfg.tPre = 0 <;> simp [Line.after, Line.next, hp, waitEvents, hg]
        · intro tx' r hm
          by_cases hp : s.cfg.tPre = 0 <;> simp [hp, waitEvents] at hm <;> exact hm.1
        · by_cases hp : s.cfg.tPre = 0 <;> simp [hp, waitEvents, List.filter_cons]
        · simp [frameEventsRun, wait_ends, xfer, State.heldAt, State.driveCs, State.emit, Line.level,
            Nat.add_comm, wait_hangs hg]
      · have hc : s.cfg.tCsHigh ≠ 0 := by intro h0; simp [h0] at h
        refine ⟨[.cs false] ++ waitEvents s.cfg.tPre ++ [.xfer tx a] ++ waitEvents s.cfg.tGuard ++ [.cs true],
          .raised, ⟨?_, rfl, by simp, ?_, ?_⟩, ?_⟩
        · by_cases hp : s.cfg.tPre = 0 <;> by_cases hg : s.cfg.tGuard = 0 <;>
            simp [Line.after, Line.next, hp, hg, hc, waitEvents]
        · intro tx' r hm
          by_cases hp : s.cfg.tPre = 0 <;> by_cases hg : s.cfg.tGuard = 0 <;>
            simp [hp, hg, waitEvents] at hm <;> exact hm.1
        · by_cases hp : s.cfg.tPre = 0 <;> by_cases hg : s.cfg.tGuard = 0 <;>
            simp [hp, hg, waitEvents, List.filter_cons]
        · simp [frameEventsRun, wait_ends, xfer, State.heldAt, State.driveCs, State.emit, Line.level,
            Nat.add_comm, Nat.add_left_comm, wait_hangs hc]
  exact key _ rfl

/-! ### What a piece of an operation does to the wire -/

/-- No exchange in the events failed. -/
def NoneFailed (evs : List Event) : Prop := ∀ e ∈ evs, e.isFailedXfer = false

/-- An exchange that failed is the last exchange. -/
def FailsLast (evs : List Event) : Prop :=
  ∀ before e after, evs = before ++ e :: after → e.isFailedXfer = true → (after.filter Event.isXfer).length = 0

theorem NoneFailed.nil : NoneFailed [] := by simp [NoneFailed]

theorem FailsLast.nil : FailsLast [] := by intro b e a h; simp at h

theorem NoneFailed.append {e1 e2 : List Event} (h1 : NoneFailed e1) (h2 : NoneFailed e2) : NoneFailed (e1 ++ e2) := by
  intro e h
  rcases List.mem_append.mp h with h | h
  · exact h1 e h
  · exact h2 e h

theorem FailsLast.append {e1 e2 : List Event} (h1 : NoneFailed e1) (h2 : FailsLast e2) : FailsLast (e1 ++ e2) := by
  intro b e a h hf
  rcases List.append_eq_append_iff.mp h with ⟨c, rfl, hc⟩ | ⟨c, rfl, hc⟩
  · exact h2 c e a hc hf
  · cases c with
    | nil => exact h2 [] e a (by simpa using hc.symm) hf
    | cons x xs =>
      have hx : e = x := by simp at hc; exact hc.1
      have := h1 x (by simp)
      rw [← hx, hf] at this
      simp at this

theorem FailsLast.of_once {evs : List Event} (h : (evs.filter Event.isXfer).length ≤ 1) : FailsLast evs := by
  intro b e a he hf
  have hx : e.isXfer = true := by
    cases e with
    | cs b => simp [Event.isFailedXfer] at hf
    | xfer tx r => rfl
    | wait d => simp [Event.isFailedXfer] at hf
  rw [he, List.filter_append, List.length_append, List.filter_cons_of_pos hx, List.length_cons] at h
  omega

/-- From `s` to `s'` only transport events happened: `evs`, leaving the wire at `l`, with transmitted bytes in `A` and
at most `n` exchanges. -/
structure Transports (A : Bytes3 → Prop) (n : Nat) (l : Line) (evs : List Event) (s s' : State) : Prop where
  cfg : s'.cfg = s.cfg
  responses : s'.responses = s.responses
  host : s'.host = s.host
  rst : s'.rst = s.rst
  busy : s'.busy = s.busy
  trace : s'.trace = s.trace ++ evs
  seq : s'.seq = s.seq.advanceBy evs.length
  line : Line.after s.cfg .rest evs = some l
  level : s'.csN = if evs = [] then s.csN else l.level
  sent : ∀ tx r, Event.xfer tx r ∈ evs → A tx
  count : (evs.filter Event.isXfer).length ≤ n
  last : FailsLast evs

/-- Whatever way a run ends, only transport events happened: complete frame transactions when it goes on or raises, and
an unfinished one when it is held. It goes on only when no exchange failed. -/
def Run.Within {α : Type} (A : Bytes3 → Prop) (n : Nat) (s : State) (r : Run α) : Prop :=
  match r with
  | .done _ s' => ∃ evs, NoneFailed evs ∧ Transports A n .rest evs s s'
  | .raised _ s' => ∃ evs, Transports A n .rest evs s s'
  | .hung s' => ∃ evs l, l.holds = true ∧ evs ≠ [] ∧ Transports A n l evs s s'

/-- A property of the state that every outcome of a run has. -/
def Run.Holds {α : Type} (P : State → Prop) (r : Run α) : Prop :=
  match r with
  | .done _ s' => P s'
  | .raised _ s' => P s'
  | .hung s' => P s'

theorem Line.after_append (c : Config) (l : Line) (e1 e2 : List Event) :
    l.after c (e1 ++ e2) = (l.after c e1).bind fun l' => l'.after c e2 := by
  induction e1 generalizing l with
  | nil => rfl
  | cons e es ih =>
    simp only [List.cons_append, Line.after]
    cases l.next c e with
    | none => rfl
    | some l' => exact ih l'

theorem Transports.refl {A : Bytes3 → Prop} {s : State} : Transports A 0 .rest [] s s where
  cfg := rfl
  responses := rfl
  host := rfl
  rst := rfl
  busy := rfl
  trace := by simp
  seq := by simp
  line := rfl
  level := by simp
  sent := by simp
  count := by simp
  last := .nil

theorem Transports.trans {A : Bytes3 → Prop} {m n : Nat} {l : Line} {e1 e2 : List Event} {s s1 s2 : State}
    (hn : NoneFailed e1) (h1 : Transports A m .rest e1 s s1) (h2 : Transports A n l e2 s1 s2) :
    Transports A (m + n) l (e1 ++ e2) s s2 where
  cfg := h2.cfg.trans h1.cfg
  responses := h2.responses.trans h1.responses
  host := h2.host.trans h1.host
  rst := h2.rst.trans h1.rst
  busy := h2.busy.trans h1.busy
  trace := by rw [h2.trace, h1.trace, List.append_assoc]
  seq := by rw [h2.seq, h1.seq, Seq.advanceBy_advanceBy, List.length_append]
  line := by
    have h := h2.line
    rw [h1.cfg] at h
    rw [Line.after_append, h1.line]
    exact h
  level := by
    have hl := h2.level
    by_cases he2 : e2 = []
    · subst he2
      simp only [if_true] at hl
      have hr : l = .rest := by have := h2.line; simpa [Line.after] using this.symm
      rw [hl, h1.level, hr]
      simp
    · rw [hl]
      simp [he2]
  sent := by
    intro tx r hm
    rcases List.mem_append.mp hm with hm | hm
    · exact h1.sent tx r hm
    · exact h2.sent tx r hm
  count := by
    rw [List.filter_append, List.length_append]
    exact Nat.add_le_add h1.count h2.count
  last := .append hn h2.last

theorem Transports.weaken {A B : Bytes3 → Prop} {m n : Nat} {l : Line} {evs : List Event} {s s' : State}
    (h : Transports A m l evs s s') (hA : ∀ tx, A tx → B tx) (hn : m ≤ n) : Transports B n l evs s s' :=
  { h with sent := fun tx r hm => hA tx (h.sent tx r hm), count := h.count.trans hn }

theorem Run.Within.weaken {α : Type} {A B : Bytes3 → Prop} {m n : Nat} {s : State} {r : Run α}
    (h : r.Within A m s) (hA : ∀ tx, A tx → B tx) (hn : m ≤ n) : r.Within B n s := by
  cases r with
  | done a s' => obtain ⟨evs, hf, h⟩ := h; exact ⟨evs, hf, h.weaken hA hn⟩
  | raised e s' => obtain ⟨evs, h⟩ := h; exact ⟨evs, h.weaken hA hn⟩
  | hung s' => obtain ⟨evs, l, h1, h2, h⟩ := h; exact ⟨evs, l, h1, h2, h.weaken hA hn⟩

/-- The wire effects of two lines of pseudocode, one after the other. -/
theorem Run.Within.bind {α β : Type} {A : Bytes3 → Prop} {m n : Nat} {s : State} {r : Run α}
    {f : α → State → Run β} (h : r.Within A m s)
    (hf : ∀ a s', s'.cfg = s.cfg → (f a s').Within A n s') : (r.bind f).Within A (m + n) s := by
  cases r with
  | done a s' =>
    obtain ⟨e1, hn, h1⟩ := h
    have h2 := hf a s' h1.cfg
    simp only [Run.bind_done]
    cases hr : f a s' with
    | done b s2 => rw [hr] at h2; obtain ⟨e2, hn2, h2⟩ := h2; exact ⟨_, hn.append hn2, h1.trans hn h2⟩
    | raised e s2 => rw [hr] at h2; obtain ⟨e2, h2⟩ := h2; exact ⟨_, h1.trans hn h2⟩
    | hung s2 =>
      rw [hr] at h2
      obtain ⟨e2, l, hl, hne, h2⟩ := h2
      exact ⟨_, l, hl, by simp [hne], h1.trans hn h2⟩
  | raised e s' => obtain ⟨e1, h1⟩ := h; exact ⟨e1, h1.weaken (fun _ h => h) (by omega)⟩
  | hung s' => obtain ⟨e1, l, hl, hne, h1⟩ := h; exact ⟨e1, l, hl, hne, h1.weaken (fun _ h => h) (by omega)⟩

theorem Run.Holds.bind {α β : Type} {P : State → Prop} {r : Run α} {f : α → State → Run β}
    (h : r.Holds P) (hf : ∀ a s, P s → (f a s).Holds P) : (r.bind f).Holds P := by
  cases r with
  | done a s => exact hf a s h
  | raised e s => exact h
  | hung s => exact h

theorem require_within {α : Type} (A : Bytes3 → Prop) (e : ErrorCode) (o : Option α) (s : State) :
    (require e o s).Within A 0 s := by
  cases o
  · exact ⟨[], .refl⟩
  · exact ⟨[], .nil, .refl⟩

theorem require_holds {α : Type} {P : State → Prop} (e : ErrorCode) (o : Option α) {s : State} (h : P s) :
    (require e o s).Holds P := by
  cases o <;> exact h

theorem frameEvents_line (c : Config) (tx : Bytes3) (r : XferResult) :
    Line.after c .rest (frameEvents c tx r) = some .rest := by
  by_cases hp : c.tPre = 0 <;> by_cases hg : c.tGuard = 0 <;> by_cases hc : c.tCsHigh = 0 <;>
    simp [frameEvents, waitEvents, Line.after, Line.next, hp, hg, hc]

theorem mem_frameEvents {c : Config} {tx tx' : Bytes3} {r r' : XferResult}
    (h : Event.xfer tx' r' ∈ frameEvents c tx r) : tx' = tx ∧ r' = r := by
  by_cases hp : c.tPre = 0 <;> by_cases hg : c.tGuard = 0 <;> by_cases hc : c.tCsHigh = 0 <;>
    simpa [frameEvents, waitEvents, hp, hg, hc] using h

theorem frameEvents_count (c : Config) (tx : Bytes3) (r : XferResult) :
    ((frameEvents c tx r).filter Event.isXfer).length = 1 := by
  by_cases hp : c.tPre = 0 <;> by_cases hg : c.tGuard = 0 <;> by_cases hc : c.tCsHigh = 0 <;>
    simp [frameEvents, waitEvents, hp, hg, hc, List.filter_cons]

theorem frameEvents_ok (c : Config) (tx rx : Bytes3) : NoneFailed (frameEvents c tx (.ok rx)) := by
  intro e he
  cases e with
  | cs b => rfl
  | xfer tx' r => rw [(mem_frameEvents he).2]; rfl
  | wait d => rfl

theorem afterFrame_transports (A : Bytes3 → Prop) (tx : Bytes3) (r : XferResult) (s : State) (h : A tx) :
    Transports A 1 .rest (frameEvents s.cfg tx r) s (s.afterFrame tx r) where
  cfg := rfl
  responses := rfl
  host := rfl
  rst := rfl
  busy := rfl
  trace := rfl
  seq := rfl
  line := frameEvents_line _ _ _
  level := by simp [State.afterFrame, frameEvents, Line.level]
  sent := fun tx' r' hm => (mem_frameEvents hm).1 ▸ h
  count := (frameEvents_count _ _ _).le
  last := .of_once (frameEvents_count _ _ _).le

theorem heldAt_transports {A : Bytes3 → Prop} {tx : Bytes3} {evs : List Event} {l : Line} {s : State}
    (hp : HeldPart s.cfg tx evs l) (h : A tx) : Transports A 1 l evs s (s.heldAt evs l) where
  cfg := rfl
  responses := rfl
  host := rfl
  rst := rfl
  busy := rfl
  trace := rfl
  seq := rfl
  line := hp.line
  level := by simp [State.heldAt, hp.began]
  sent := fun tx' r' hm => hp.xfers tx' r' hm ▸ h
  count := hp.once
  last := .of_once hp.once

/-- What survives a complete and a held frame transaction holds after one. -/
theorem frame_holds {P : State → Prop} (tx : Bytes3) {s : State} (h : P s)
    (h1 : ∀ s tx r, P s → P (State.afterFrame tx r s))
    (h2 : ∀ s evs l, P s → P (State.heldAt evs l s)) : (frame tx s).Holds P := by
  cases hr : s.reply tx with
  | some r => rw [frame_answered hr]; exact h1 s tx r h
  | none =>
    obtain ⟨evs, l, hp, he⟩ := frame_held hr
    rw [he]
    exact h2 s evs l h

/-! ### Transactions -/

theorem frameOk_ok {tx : Bytes3} {rx : Bytes3} {s : State} (h : s.reply tx = some (.ok rx)) :
    frameOk tx s = .done rx (s.afterFrame tx (.ok rx)) := by
  simp [frameOk, frame_answered h]

theorem frameOk_err {tx : Bytes3} {s : State} (h : s.reply tx = some .err) :
    frameOk tx s = .raised .transportError (s.afterFrame tx .err) := by
  simp [frameOk, frame_answered h]

theorem frameOk_held {tx : Bytes3} {s : State} (h : s.reply tx = none) :
    ∃ evs l, HeldPart s.cfg tx evs l ∧ frameOk tx s = .hung (s.heldAt evs l) := by
  obtain ⟨evs, l, hp, he⟩ := frame_held h
  exact ⟨evs, l, hp, by simp [frameOk, he]⟩

/-- Everything a frame transaction of a command does to the wire. -/
theorem frameOk_within {A : Bytes3 → Prop} (tx : Bytes3) (s : State) (h : A tx) :
    (frameOk tx s).Within A 1 s := by
  cases hr : s.reply tx with
  | some r =>
    cases r with
    | ok rx => rw [frameOk_ok hr]; exact ⟨_, frameEvents_ok _ _ _, afterFrame_transports A tx _ s h⟩
    | err => rw [frameOk_err hr]; exact ⟨_, afterFrame_transports A tx _ s h⟩
  | none =>
    obtain ⟨evs, l, hp, he⟩ := frameOk_held hr
    rw [he]
    exact ⟨evs, l, hp.holds, hp.began, heldAt_transports hp h⟩

theorem frameOk_holds {P : State → Prop} (tx : Bytes3) {s : State} (h : P s)
    (h1 : ∀ s tx r, P s → P (State.afterFrame tx r s))
    (h2 : ∀ s evs l, P s → P (State.heldAt evs l s)) : (frameOk tx s).Holds P :=
  (frame_holds tx h h1 h2).bind fun r s' h' => by cases r <;> exact h'

theorem memWrite_ok {addr : Byte} {v : Half} {rx : Bytes3} {s : State}
    (h : s.reply (writeTx addr v) = some (.ok rx)) :
    memWrite addr v s = .done () (s.afterFrame (writeTx addr v) (.ok rx)) := by
  simp [memWrite, frameOk_ok h]

theorem memWrite_err {addr : Byte} {v : Half} {s : State} (h : s.reply (writeTx addr v) = some .err) :
    memWrite addr v s = .raised .transportError (s.afterFrame (writeTx addr v) .err) := by
  simp [memWrite, frameOk_err h]

theorem memWrite_held {addr : Byte} {v : Half} {s : State} (h : s.reply (writeTx addr v) = none) :
    ∃ evs l, HeldPart s.cfg (writeTx addr v) evs l ∧ memWrite addr v s = .hung (s.heldAt evs l) := by
  obtain ⟨evs, l, hp, he⟩ := frameOk_held h
  exact ⟨evs, l, hp, by simp [memWrite, he]⟩

theorem memWrite_within {A : Bytes3 → Prop} (addr : Byte) (v : Half) (s : State) (h : A (writeTx addr v)) :
    (memWrite addr v s).Within A 1 s :=
  (frameOk_within _ s h).bind (n := 0) fun _ _ _ => ⟨[], .nil, .refl⟩

theorem memWrite_holds {P : State → Prop} (addr : Byte) (v : Half) {s : State} (h : P s)
    (h1 : ∀ s tx r, P s → P (State.afterFrame tx r s))
    (h2 : ∀ s evs l, P s → P (State.heldAt evs l s)) : (memWrite addr v s).Holds P :=
  (frameOk_holds _ h h1 h2).bind fun _ _ h' => h'

theorem latchStatus_transports (A : Bytes3 → Prop) (b : Byte) (s : State) :
    Transports A 0 .rest [] s (s.latchStatus b) where
  cfg := rfl
  responses := rfl
  host := rfl
  rst := rfl
  busy := rfl
  trace := by simp
  seq := by simp
  line := rfl
  level := by simp
  sent := by simp
  count := by simp
  last := .nil

/-- A successful read transaction: two frames, the status byte latched (40_framer.md R123). -/
theorem memRead_ok {addr : Byte} {r1 rx : Bytes3} {s : State}
    (h1 : s.reply (readRequestTx addr) = some (.ok r1))
    (h2 : (s.afterFrame (readRequestTx addr) (.ok r1)).reply (readDataTx s.cfg.dummyByte) = some (.ok rx)) :
    memRead addr s = .done (rx.b0, rxValue rx)
      (((s.afterFrame (readRequestTx addr) (.ok r1)).afterFrame (readDataTx s.cfg.dummyByte) (.ok rx)).latchStatus
        rx.b0) := by
  simp [memRead, frameOk_ok h1, frameOk_ok h2, receiveData]

/-- A read transaction whose first frame fails: "the second frame is not sent" (40_framer.md R123). -/
theorem memRead_err_first {addr : Byte} {s : State} (h1 : s.reply (readRequestTx addr) = some .err) :
    memRead addr s = .raised .transportError (s.afterFrame (readRequestTx addr) .err) := by
  simp [memRead, frameOk_err h1]

/-- A read transaction whose second frame fails: nothing is latched (10_state.md R26). -/
theorem memRead_err_second {addr : Byte} {r1 : Bytes3} {s : State}
    (h1 : s.reply (readRequestTx addr) = some (.ok r1))
    (h2 : (s.afterFrame (readRequestTx addr) (.ok r1)).reply (readDataTx s.cfg.dummyByte) = some .err) :
    memRead addr s = .raised .transportError
      ((s.afterFrame (readRequestTx addr) (.ok r1)).afterFrame (readDataTx s.cfg.dummyByte) .err) := by
  simp [memRead, frameOk_ok h1, frameOk_err h2]

theorem memRead_within {A : Bytes3 → Prop} (addr : Byte) (s : State) (h1 : A (readRequestTx addr))
    (h2 : A (readDataTx s.cfg.dummyByte)) : (memRead addr s).Within A 2 s :=
  (frameOk_within _ s h1).bind (n := 1) fun _ s' hc =>
    (frameOk_within _ s' (hc ▸ h2)).bind (n := 0) fun rx s2 _ => ⟨[], .nil, latchStatus_transports A rx.b0 s2⟩

/-- What survives frame transactions and the latching of a status byte holds after a read transaction. -/
theorem memRead_holds {P : State → Prop} (addr : Byte) {s : State} (h : P s)
    (h1 : ∀ s tx r, P s → P (State.afterFrame tx r s))
    (h2 : ∀ s evs l, P s → P (State.heldAt evs l s))
    (h3 : ∀ s b, P s → P (State.latchStatus b s)) : (memRead addr s).Holds P :=
  (frameOk_holds _ h h1 h2).bind fun _ _ h' => (frameOk_holds _ h' h1 h2).bind fun rx s2 h2 => h3 s2 rx.b0 h2

theorem rmw_within {A : Bytes3 → Prop} (addr : Byte) (f : Half → Half) (s : State) (h1 : A (readRequestTx addr))
    (h2 : A (readDataTx s.cfg.dummyByte)) (h3 : ∀ v, A (writeTx addr v)) : (rmw addr f s).Within A 3 s :=
  (memRead_within addr s h1 h2).bind (n := 1) fun _ s' _ => memWrite_within addr _ s' (h3 _)

theorem rmw_holds {P : State → Prop} (addr : Byte) (f : Half → Half) {s : State} (h : P s)
    (h1 : ∀ s tx r, P s → P (State.afterFrame tx r s))
    (h2 : ∀ s evs l, P s → P (State.heldAt evs l s))
    (h3 : ∀ s b, P s → P (State.latchStatus b s)) : (rmw addr f s).Holds P :=
  (memRead_holds addr h h1 h2 h3).bind fun _ _ h' => memWrite_holds addr _ h' h1 h2

theorem writeRC_transports (A : Bytes3 → Prop) (i : Fin 4) (w : Half) (s : State) :
    Transports A 0 .rest [] s (s.writeRC i w) where
  cfg := rfl
  responses := rfl
  host := rfl
  rst := rfl
  busy := rfl
  trace := by simp
  seq := by simp
  line := rfl
  level := by simp
  sent := by simp
  count := by simp
  last := .nil

/-- What the range code check accepts: exactly the codes of `VALID_RANGE`, with no other bit set (30_encoding.md R91). -/
theorem rangeCodeOf_eq_some {c : Config} {b : Half} {code : RangeCode c.validRange} :
    rangeCodeOf c b = some code ↔ b = code.code.setWidth 16 := by
  obtain ⟨x, hx⟩ := code
  unfold rangeCodeOf
  constructor
  · intro h
    split at h
    · split at h
      · cases h
        apply BitVec.eq_of_toNat_eq
        simp
        omega
      · cases h
    · cases h
  · rintro rfl
    have h15 : (x.setWidth 16).toNat ≤ 15 := by simp; omega
    rw [if_pos h15]
    simp [hx]

/-- What the range code check refuses (30_encoding.md R91). -/
theorem rangeCodeOf_eq_none {c : Config} {b : Half} :
    rangeCodeOf c b = none ↔ ∀ x ∈ c.validRange, b ≠ x.setWidth 16 := by
  rw [Option.eq_none_iff_forall_ne_some]
  exact ⟨fun h x hx hb => h ⟨x, hx⟩ (rangeCodeOf_eq_some.2 hb), fun h r hr => h _ r.mem (rangeCodeOf_eq_some.1 hr)⟩

theorem storeRange_within {A : Bytes3 → Prop} {valid : List (BitVec 4)} (ch : Fin 16)
    (code : RangeCode valid) (s : State)
    (h : ∀ v, A (writeTx (rangeAddr s.cfg (rangeIndex ch)) v)) : (storeRange ch code s).Within A 1 s :=
  (memWrite_within _ _ s (h _)).bind (n := 0) fun _ s' _ => ⟨[], .nil, writeRC_transports A _ _ s'⟩

/-- What SET_RANGE's body does to the range cache: the merged word after a successful write, nothing otherwise
(41_range.md R141). -/
theorem storeRange_cases {valid : List (BitVec 4)} (ch : Fin 16) (code : RangeCode valid) (s : State) :
    (∃ s', storeRange ch code s = .done () s' ∧
        s'.rc = s.rc.set (rangeIndex ch) (rangeEncode (s.readRC (rangeIndex ch)) ch code.code)) ∨
      (∃ e s', storeRange ch code s = .raised e s' ∧ s'.rc = s.rc) ∨
      (∃ s', storeRange ch code s = .hung s' ∧ s'.rc = s.rc) := by
  have h := memWrite_holds (P := fun s' => s'.rc = s.rc) (rangeAddr s.cfg (rangeIndex ch))
    (rangeEncode (s.readRC (rangeIndex ch)) ch code.code) (s := s) rfl (fun _ _ _ h => h) (fun _ _ _ h => h)
  simp only [storeRange]
  cases hr : memWrite (rangeAddr s.cfg (rangeIndex ch)) (rangeEncode (s.readRC (rangeIndex ch)) ch code.code) s with
  | done a s' => rw [hr] at h; exact .inl ⟨_, rfl, by simp only [State.writeRC_rc]; rw [show s'.rc = s.rc from h]⟩
  | raised e s' => rw [hr] at h; exact .inr (.inl ⟨e, s', rfl, h⟩)
  | hung s' => rw [hr] at h; exact .inr (.inr ⟨s', rfl, h⟩)

theorem initRanges_within {A : Bytes3 → Prop} (chs : List (Fin 16)) (s : State)
    (h : ∀ ch v, A (writeTx (rangeAddr s.cfg (rangeIndex ch)) v)) : (initRanges chs s).Within A chs.length s := by
  induction chs generalizing s with
  | nil => exact ⟨[], .nil, .refl⟩
  | cons ch rest ih =>
    have := (storeRange_within ch s.cfg.defaultRange s (h ch)).bind (n := rest.length)
      (f := fun _ s => initRanges rest s) fun _ s' hc => ih s' (by rw [hc]; exact h)
    simpa [initRanges, Nat.add_comm] using this

end Sys2Proof.Machine
end

