-- ==== Sys2Proof/Laws/Exec.lean ====
section
/-! SUPPORT. What every host command does to the wire, said once for all seventeen, and what the next step of the block
can be. -/

namespace Sys2Proof.Machine

theorem frameAllowed_writeTx {c : Config} {a : Byte} {v : Half} (h : a ∈ c.validAddrs) :
    frameAllowed c (writeTx a v) := .inl h

theorem frameAllowed_readRequestTx {c : Config} {a : Byte} (h : a ∈ c.validAddrs) :
    frameAllowed c (readRequestTx a) := .inr (.inl ⟨a, h, rfl⟩)

theorem frameAllowed_readDataTx {c : Config} : frameAllowed c (readDataTx c.dummyByte) := .inr (.inr rfl)

theorem rangeAddr_valid (c : Config) (i : Fin 4) : rangeAddr c i ∈ c.validAddrs := by
  fin_cases i <;> simp [rangeAddr, Config.validAddrs]

theorem outputAddr_valid (c : Config) (i : Fin 16) : outputAddr c i ∈ c.validAddrs := by
  fin_cases i <;> simp [outputAddr, Config.validAddrs]

theorem toggleAddr_valid (c : Config) (i : Fin 16) : toggleAddr c i ∈ c.validAddrs := by
  unfold toggleAddr; split <;> simp [Config.validAddrs]

theorem respondZero_within (A : Bytes3 → Prop) (s : State) : (respondZero s).Within A 0 s := ⟨[], .nil, .refl⟩

theorem done_within {α : Type} (A : Bytes3 → Prop) (a : α) (s : State) : (Run.done a s).Within A 0 s :=
  ⟨[], .nil, .refl⟩

theorem require_bind_within {α β : Type} {A : Bytes3 → Prop} {n : Nat} {e : ErrorCode} {o : Option α} {s : State}
    {f : α → State → Run β} (h : ∀ a, (f a s).Within A n s) : ((require e o s).bind f).Within A n s := by
  cases o
  · exact ⟨[], Transports.refl.weaken (fun _ h => h) (by omega)⟩
  · exact h _

theorem setInitialized_transports (A : Bytes3 → Prop) (s : State) : Transports A 0 .rest [] s s.setInitialized :=
  { (Transports.refl (A := A) (s := s)) with }

/-- Every host command ends in the conclusion of a run that only performs transport events: frames of the kinds of
30_encoding.md R100, at most as many as 70_reset_and_hazards.md R279 counts. -/
theorem exec_within (i : Instr) (s : State) (hi : i.isCommand = true) :
    ∃ r : Run (Byte × Half), exec i s = .next r.conclude ∧
      r.Within (frameAllowed s.cfg) i.frameCount (s.accept i) := by
  have W : ∀ (a : Byte) (v : Half) (s' : State), a ∈ s.cfg.validAddrs →
      ((memWrite a v s').bind fun _ s => respondZero s).Within (frameAllowed s.cfg) 1 s' := fun a v s' ha =>
    Run.Within.bind (n := 0) (memWrite_within a v s' (frameAllowed_writeTx ha)) fun _ s2 _ => respondZero_within _ s2
  have R : ∀ (a : Byte) (s' : State) (g : Byte × Half → Byte × Half), s'.cfg = s.cfg → a ∈ s.cfg.validAddrs →
      ((memRead a s').bind fun r s => .done (g r) s).Within (frameAllowed s.cfg) 2 s' := fun a s' g hc ha =>
    Run.Within.bind (n := 0) (memRead_within a s' (frameAllowed_readRequestTx ha) (hc ▸ frameAllowed_readDataTx))
      fun _ s2 _ => done_within _ _ s2
  have M : ∀ (a : Byte) (f : Half → Half) (s' : State), s'.cfg = s.cfg → a ∈ s.cfg.validAddrs →
      ((rmw a f s').bind fun _ s => respondZero s).Within (frameAllowed s.cfg) 3 s' := fun a f s' hc ha =>
    Run.Within.bind (n := 0) (rmw_within a f s' (frameAllowed_readRequestTx ha) (hc ▸ frameAllowed_readDataTx)
      fun v => frameAllowed_writeTx ha) fun _ s2 _ => respondZero_within _ s2
  have V : ∀ (s' : State), s'.cfg = s.cfg → ∀ ch v,
      frameAllowed s.cfg (writeTx (rangeAddr s'.cfg (rangeIndex ch)) v) := by
    intro s' hc ch v
    rw [hc]
    exact frameAllowed_writeTx (rangeAddr_valid _ _)
  have A : ∀ (addr : Byte) (e : ErrorCode) (s' : State) (n : Nat) (f : Byte → State → Run (Byte × Half)),
      s'.cfg = s.cfg → (addr ∈ s.cfg.validAddrs → (f addr s').Within (frameAllowed s.cfg) n s') →
      ((require e (if validAddr s'.cfg addr then some addr else none) s').bind f).Within (frameAllowed s.cfg) n s' := by
    intro addr e s' n f hc h
    rw [hc]
    by_cases hm : addr ∈ s.cfg.validAddrs
    · have hv : validAddr s.cfg addr = true := by simp [validAddr, hm]
      simpa [hv] using h hm
    · have hv : validAddr s.cfg addr = false := by simp [validAddr, hm]
      simpa [hv] using ⟨[], Transports.refl.weaken (fun _ h => h) (by omega)⟩
  cases i <;> first | (simp [Instr.isCommand, Instr.layout] at hi; done) | refine ⟨_, rfl, ?_⟩
  case writeReg addr v => exact A addr _ _ 1 _ rfl fun h => W addr v _ h
  case readReg addr => exact A addr _ _ 2 _ rfl fun h => R addr _ (fun r => (r.1, r.2)) rfl h
  case setRange ch code =>
    exact require_bind_within fun k => require_bind_within fun c =>
      Run.Within.bind (n := 0) (storeRange_within k c _ (V _ rfl k)) fun _ s3 _ => respondZero_within _ s3
  case getRange ch => exact require_bind_within fun k => done_within _ _ _
  case setPower ch b =>
    exact require_bind_within fun k => require_bind_within fun c => M _ _ _ rfl (by simp [Config.validAddrs])
  case setSync ch b =>
    exact require_bind_within fun k => require_bind_within fun c => M _ _ _ rfl (by simp [Config.validAddrs])
  case setToggleMode ch b =>
    exact require_bind_within fun k => require_bind_within fun c => M _ _ _ rfl (toggleAddr_valid _ _)
  case setOutput ch v => exact require_bind_within fun k => W _ _ _ (outputAddr_valid _ _)
  case setBcastEn ch b =>
    exact require_bind_within fun k => require_bind_within fun c => M _ _ _ rfl (by simp [Config.validAddrs])
  case triggerLdac => exact W _ _ _ (by simp [Config.validAddrs])
  case triggerAlarmReset => exact W _ _ _ (by simp [Config.validAddrs])
  case triggerDefaultsReset => exact W _ _ _ (by simp [Config.validAddrs])
  case triggerToggle sel => exact require_bind_within fun k => W _ _ _ (by simp [Config.validAddrs])
  case deviceIdentity =>
    exact R _ _ (fun r => ((version r.2).setWidth 8, (family r.2).setWidth 16)) rfl (by simp [Config.validAddrs])
  case isResponding =>
    exact R _ _ (fun r => (0, if responding r.2 then 1 else 0)) rfl (by simp [Config.validAddrs])
  case init =>
    exact Run.Within.bind (m := 1) (n := 16)
      (memWrite_within _ _ _ (frameAllowed_writeTx (by simp [Config.validAddrs]))) fun _ s1 h1 =>
      Run.Within.bind (m := 16) (n := 0) (initRanges_within allChannels s1 (V s1 h1)) fun _ s2 _ =>
        ⟨[], .nil, setInitialized_transports _ s2⟩
  case getLastStatus => exact done_within _ _ _

/-! ### What an operation keeps -/

theorem Run.Holds.conclude {P : State → Prop} {r : Run (Byte × Half)} (h : r.Holds P)
    (hr : ∀ w s, P s → P (State.respond w s)) : P r.conclude := by
  cases r with
  | done a s => exact hr _ _ h
  | raised e s => exact hr _ _ h
  | hung s => exact h

theorem Run.Holds.settled {α : Type} {P : State → Prop} {r : Run α} (h : r.Holds P)
    (hr : ∀ s, P s → P (State.settle s)) : P r.settled := by
  cases r with
  | done a s => exact hr _ h
  | raised e s => exact hr _ h
  | hung s => exact h

theorem storeRange_holds {P : State → Prop} {valid : List (BitVec 4)} (ch : Fin 16) (code : RangeCode valid)
    {s : State} (h : P s)
    (h1 : ∀ s tx r, P s → P (State.afterFrame tx r s)) (h2 : ∀ s evs l, P s → P (State.heldAt evs l s))
    (h3 : ∀ i w s, P s → P (State.writeRC i w s)) : (storeRange ch code s).Holds P :=
  (memWrite_holds _ _ h h1 h2).bind fun _ s' h' => h3 _ _ s' h'

theorem initRanges_holds {P : State → Prop} (chs : List (Fin 16)) {s : State} (h : P s)
    (h1 : ∀ s tx r, P s → P (State.afterFrame tx r s)) (h2 : ∀ s evs l, P s → P (State.heldAt evs l s))
    (h3 : ∀ i w s, P s → P (State.writeRC i w s)) : (initRanges chs s).Holds P := by
  induction chs generalizing s with
  | nil => exact h
  | cons ch rest ih => exact (storeRange_holds ch _ h h1 h2 h3).bind fun _ _ h' => ih h'

/-- A property that survives transport events, acceptance and responses survives every operation, if it survives what
else the operation may write: the latched status, the range cache, the phase. -/
theorem exec_holds {P : State → Prop} {i : Instr} {s t : State} (h : exec i s = .next t) (h0 : P s)
    (h1 : ∀ s tx r, P s → P (State.afterFrame tx r s)) (h2 : ∀ s evs l, P s → P (State.heldAt evs l s))
    (h3 : ∀ i s, P s → P (State.accept i s)) (h4 : ∀ w s, P s → P (State.respond w s))
    (h5 : ∀ s, P s → P (State.settle s)) (h6 : i.readsDevice = true → ∀ s b, P s → P (State.latchStatus b s))
    (h7 : i.writesRanges = true → ∀ j w s, P s → P (State.writeRC j w s))
    (h8 : i = .init → ∀ s, P s → P (State.setInitialized s)) : P t := by
  have W : ∀ a v s', P s' → ((memWrite a v s').bind fun _ s => respondZero s).Holds P := fun a v s' h =>
    (memWrite_holds a v h h1 h2).bind fun _ _ h => h
  have R : i.readsDevice = true → ∀ a s' (g : Byte × Half → Byte × Half), P s' →
      ((memRead a s').bind fun r s => .done (g r) s).Holds P := fun hi a s' g h =>
    (memRead_holds a h h1 h2 (h6 hi)).bind fun _ _ h => h
  have M : i.readsDevice = true → ∀ a f s', P s' → ((rmw a f s').bind fun _ s => respondZero s).Holds P :=
    fun hi a f s' h => (rmw_holds a f h h1 h2 (h6 hi)).bind fun _ _ h => h
  have Q : ∀ {α β : Type} (e : ErrorCode) (o : Option α) (s' : State) (f : α → State → Run β), P s' →
      (∀ a s, P s → (f a s).Holds P) → ((require e o s').bind f).Holds P := fun e o s' f h hf =>
    (require_holds e o h).bind hf
  cases i <;> injection h with h <;> subst h
  case writeReg => exact (Q _ _ _ _ (h3 _ _ h0) fun _ _ h => W _ _ _ h).conclude h4
  case readReg => exact (Q _ _ _ _ (h3 _ _ h0) fun _ _ h => R rfl _ _ (fun r => (r.1, r.2)) h).conclude h4
  case setRange =>
    exact (Q _ _ _ _ (h3 _ _ h0) fun _ _ h => Q _ _ _ _ h fun _ _ h =>
      (storeRange_holds _ _ h h1 h2 (h7 rfl)).bind fun _ s h => show (respondZero s).Holds P from h).conclude h4
  case getRange =>
    exact (Q _ _ _ _ (h3 _ _ h0) fun k s h =>
      show (Run.done ((0, (rangeDecode (s.readRC (rangeIndex k)) k).setWidth 16) : Byte × Half) s).Holds P from
        h).conclude h4
  case setPower => exact (Q _ _ _ _ (h3 _ _ h0) fun _ _ h => Q _ _ _ _ h fun _ _ h => M rfl _ _ _ h).conclude h4
  case setSync => exact (Q _ _ _ _ (h3 _ _ h0) fun _ _ h => Q _ _ _ _ h fun _ _ h => M rfl _ _ _ h).conclude h4
  case setToggleMode =>
    exact (Q _ _ _ _ (h3 _ _ h0) fun _ _ h => Q _ _ _ _ h fun _ _ h => M rfl _ _ _ h).conclude h4
  case setOutput => exact (Q _ _ _ _ (h3 _ _ h0) fun _ _ h => W _ _ _ h).conclude h4
  case setBcastEn => exact (Q _ _ _ _ (h3 _ _ h0) fun _ _ h => Q _ _ _ _ h fun _ _ h => M rfl _ _ _ h).conclude h4
  case triggerLdac => exact (W _ _ _ (h3 _ _ h0)).conclude h4
  case triggerAlarmReset => exact (W _ _ _ (h3 _ _ h0)).conclude h4
  case triggerDefaultsReset => exact (W _ _ _ (h3 _ _ h0)).conclude h4
  case triggerToggle => exact (Q _ _ _ _ (h3 _ _ h0) fun _ _ h => W _ _ _ h).conclude h4
  case deviceIdentity =>
    exact (R rfl _ _ (fun r => ((version r.2).setWidth 8, (family r.2).setWidth 16)) (h3 _ _ h0)).conclude h4
  case isResponding => exact (R rfl _ _ (fun r => (0, if responding r.2 then 1 else 0)) (h3 _ _ h0)).conclude h4
  case init =>
    exact ((memWrite_holds _ _ (h3 _ _ h0) h1 h2).bind fun _ _ h =>
      (initRanges_holds allChannels h h1 h2 (h7 rfl)).bind fun _ s h =>
        show (respondZero s.setInitialized).Holds P from h8 rfl s h).conclude h4
  case getLastStatus => exact h4 _ _ (h3 _ _ h0)
  case writeFrame => exact (frame_holds _ (h3 _ _ h0) h1 h2).settled h5
  case readRequestFrame => exact (frame_holds _ (h3 _ _ h0) h1 h2).settled h5
  case readDataFrameTx => exact (frame_holds _ (h3 _ _ h0) h1 h2).settled h5
  case readDataFrameRx => exact h5 _ (h6 rfl _ _ (h3 _ _ h0))
  case responseWord => exact h4 _ _ (h3 _ _ h0)

/-! ### What comes next -/

/-- A host command word decodes to a host command. -/
theorem isCommand_of_decode {w : Word} {i : Instr} (h : decode .command w = some i) : i.isCommand = true := by
  simp only [decode, decodeCommand] at h
  split at h
  case h_10 =>
    unfold decodeTrigger at h
    split at h <;> simp at h <;> subst h <;> rfl
  all_goals first | (simp at h; done) | (simp at h; subst h; rfl)

/-- A run whose first step answers a next state goes on from there. -/
theorem run_of_step {M : Host.Core} {s s' : M.State} (h : M.step s = .next s') (n : Nat) :
    M.run (n + 1) s = M.run n s' := by
  rw [Host.Core.run, h]

/-- An operation the block runs is the one its sequencer stands at, or the command word presented to it. -/
theorem nextOf_run {s s' : State} {i : Instr} (h : nextOf s = .run i s') :
    s.rst = false ∧ ((s.busy = true ∧ s.seq = .running i 0 ∧ s' = s) ∨
      ∃ w rest, s.busy = false ∧ s.host = w :: rest ∧ decode .command w = some i ∧
        s' = { s with host := rest }) := by
  unfold nextOf at h
  split at h
  · simp at h
  · rename_i hr
    refine ⟨by simpa using hr, ?_⟩
    split at h
    · rename_i hb
      unfold nextOfSeq at h
      split at h <;> simp at h
      rename_i hq
      obtain ⟨rfl, rfl⟩ := h
      exact .inl ⟨hb, hq, rfl⟩
    · rename_i hb
      unfold nextOfHost at h
      split at h
      · simp at h
      · split at h <;> simp at h
        obtain ⟨rfl, rfl⟩ := h
        rename_i hh _ _ hd
        exact .inr ⟨_, _, by simpa using hb, hh, hd, rfl⟩

/-- A command word that is refused is the one presented to an idle block. -/
theorem nextOf_invalid {s s' : State} (h : nextOf s = .invalid s') :
    s.rst = false ∧ s.busy = false ∧ ∃ w rest, s.host = w :: rest ∧ decode .command w = none ∧
      s' = { s with host := rest } := by
  unfold nextOf at h
  split at h
  · simp at h
  · rename_i hr
    refine ⟨by simpa using hr, ?_⟩
    split at h
    · unfold nextOfSeq at h
      split at h <;> simp at h
    · rename_i hb
      unfold nextOfHost at h
      split at h
      · simp at h
      · split at h <;> simp at h
        rename_i w rest hh _ hd
        exact ⟨by simpa using hb, w, rest, hh, hd, h.symm⟩

/-- SET_RANGE of a channel and a valid code is the store of the code, then the response (41_range.md R141). -/
theorem execSetRange_of_code {ch : Byte} {b : Half} {s : State} {k : Fin 16} {code : RangeCode s.cfg.validRange}
    (hk : channelOf ch = some k) (hc : rangeCodeOf s.cfg b = some code) :
    execSetRange ch b s = .next
      ((storeRange k code (s.accept (.setRange ch b))).bind fun _ s => respondZero s).conclude := by
  have hc' : rangeCodeOf (s.accept (.setRange ch b)).cfg b = some code := hc
  unfold execSetRange operate
  rw [hk]
  show Host.Outcome.next (((require _ (rangeCodeOf (s.accept (.setRange ch b)).cfg b) _).bind _).conclude) = _
  rw [hc']
  rfl

end Sys2Proof.Machine
end

