-- ==== Sys2Proof/Laws/PerInstr.lean ====
section
/-! SUPPORT. What holds of every operation as syntax, one lemma per constructor: its word fits in the number of bits its
layout has (spec/30_encoding.md R81 to R83). -/

namespace Sys2Proof.Laws

/-- The encoding of an operation has no bit above its layout's width. -/
def EncodeFits.Statement (i : Instr) : Prop := (encode i).toNat < 2 ^ i.layout.nbits

theorem append_toNat_lt {m n k : Nat} {x : BitVec m} (y : BitVec n) (h : x.toNat < 2 ^ k) :
    (x ++ y).toNat < 2 ^ (k + n) := by
  rw [BitVec.toNat_append]
  refine Nat.or_lt_two_pow ?_ (y.isLt.trans_le (Nat.pow_le_pow_right (by omega) (by omega)))
  rw [Nat.shiftLeft_eq, Nat.pow_add]
  exact Nat.mul_lt_mul_of_pos_right h (Nat.two_pow_pos n)

theorem zero_toNat_lt (m : Nat) : (0#m).toNat < 2 ^ 0 := by simp

theorem EncodeFits.writeReg (addr : Byte) (value : Half) : EncodeFits.Statement (.writeReg addr value) :=
  (encode _).isLt

theorem EncodeFits.readReg (addr : Byte) : EncodeFits.Statement (.readReg addr) := (encode _).isLt

theorem EncodeFits.setRange (ch : Byte) (code : Half) : EncodeFits.Statement (.setRange ch code) := (encode _).isLt

theorem EncodeFits.getRange (ch : Byte) : EncodeFits.Statement (.getRange ch) := (encode _).isLt

theorem EncodeFits.setPower (ch : Byte) (enabled : Half) : EncodeFits.Statement (.setPower ch enabled) :=
  (encode _).isLt

theorem EncodeFits.setSync (ch : Byte) (mode : Half) : EncodeFits.Statement (.setSync ch mode) := (encode _).isLt

theorem EncodeFits.setToggleMode (ch : Byte) (mode : Half) : EncodeFits.Statement (.setToggleMode ch mode) :=
  (encode _).isLt

theorem EncodeFits.setOutput (ch : Byte) (value : Half) : EncodeFits.Statement (.setOutput ch value) :=
  (encode _).isLt

theorem EncodeFits.setBcastEn (ch : Byte) (included : Half) : EncodeFits.Statement (.setBcastEn ch included) :=
  (encode _).isLt

theorem EncodeFits.triggerLdac : EncodeFits.Statement (.triggerLdac) := (encode _).isLt

theorem EncodeFits.triggerAlarmReset : EncodeFits.Statement (.triggerAlarmReset) := (encode _).isLt

theorem EncodeFits.triggerDefaultsReset : EncodeFits.Statement (.triggerDefaultsReset) := (encode _).isLt

theorem EncodeFits.triggerToggle (sel : Half) : EncodeFits.Statement (.triggerToggle sel) := (encode _).isLt

theorem EncodeFits.deviceIdentity : EncodeFits.Statement (.deviceIdentity) := (encode _).isLt

theorem EncodeFits.isResponding : EncodeFits.Statement (.isResponding) := (encode _).isLt

theorem EncodeFits.init : EncodeFits.Statement (.init) := (encode _).isLt

theorem EncodeFits.getLastStatus : EncodeFits.Statement (.getLastStatus) := (encode _).isLt

theorem EncodeFits.writeFrame (addr : BitVec 6) (value : Half) : EncodeFits.Statement (.writeFrame addr value) :=
  append_toNat_lt _ (append_toNat_lt _ (append_toNat_lt _ (zero_toNat_lt 8)))

theorem EncodeFits.readRequestFrame (addr : BitVec 6) : EncodeFits.Statement (.readRequestFrame addr) :=
  append_toNat_lt _ (append_toNat_lt _ (append_toNat_lt _ (zero_toNat_lt 8)))

theorem EncodeFits.readDataFrameTx (d : Byte) : EncodeFits.Statement (.readDataFrameTx d) :=
  append_toNat_lt _ (append_toNat_lt _ (append_toNat_lt _ (zero_toNat_lt 8)))

theorem EncodeFits.readDataFrameRx (st : Byte) (v : Half) : EncodeFits.Statement (.readDataFrameRx st v) :=
  append_toNat_lt _ (append_toNat_lt _ (zero_toNat_lt 8))

theorem EncodeFits.responseWord (e : BitVec 4) (x : Byte) (d : Half) : EncodeFits.Statement (.responseWord e x d) :=
  (encode _).isLt

end Sys2Proof.Laws
end

