-- ==== Sys2Proof/Tests/Slice0.lean ====
section
/-! SUPPORT. The model's own tests: ill-formed terms that the checks refuse, every operation's word decoded from its
encoding, one step of each operation against the vectors of spec/95_test_vectors.md (parameters P0), and a witness for the
hypotheses of every statement that has some. -/

namespace Sys2Proof.Tests

open Sys2Proof Sys2Proof.Machine

/-! ### Helpers -/

/-- The exchange is answered with these bytes. -/
def ok (a b c : Byte) : Turn := { answer := .ok ⟨a, b, c⟩ }

/-- The exchange fails. -/
def bad : Turn := { answer := .err }

/-- The exchange is never answered. -/
def silent : Turn := { answer := .err, stall := some .xfer }

/-- A block after reset with these answers to come. -/
def facing (ts : List Turn) : State := { State.reset with env := ts }

/-- The same with a command word presented. -/
def given (w : Word) (ts : List Turn) : State := { facing ts with host := [w] }

/-- A part of the next state. -/
def after {α : Type} (f : State → α) (o : Host.Outcome State Fault Refusal) : Option α :=
  match o with
  | .next s => some (f s)
  | .fault _ => none
  | .refused _ => none

/-- The bytes transmitted, frame by frame. -/
def sent (s : State) : List Bytes3 :=
  s.trace.filterMap fun e =>
    match e with
    | .cs _ => none
    | .xfer tx _ => some tx
    | .wait _ => none

/-- What was sent and what was responded. -/
def seen (s : State) : List Bytes3 × List Word := (sent s, s.responses)

/-! ### Well-formedness -/

theorem test_wf_error_code : (Instr.responseWord 6 0 0).wfErrorCode = false := by decide
theorem test_wf_error_fields : (Instr.responseWord 1 0 1).wfErrorFields = false := by decide
theorem test_wf_refuses : (Instr.responseWord 6 0 0).wf = false ∧ (Instr.responseWord 1 2 0).wf = false := by decide
theorem test_wf_addr_high : ({ Config.p0 with aStatus := 0x40 } : Config).wfAddrHigh = false := by decide
theorem test_wf_groups : ({ Config.p0 with aDacBase := 0x31 } : Config).wfGroups = false := by decide
theorem test_wf_distinct : ({ Config.p0 with aStatus := 0x01 } : Config).wfDistinct = false := by decide
theorem test_wf_triggers : ({ Config.p0 with trigLdac := 0x0030 } : Config).wfTriggers = false ∧
    ({ Config.p0 with trigDefaultsReset := 0x0010 } : Config).wfTriggers = false := by decide
theorem test_range_code_is_closed : rangeCodeOf Config.p0 0x0003 = none ∧ rangeCodeOf Config.p0 0x001E = none ∧
    (rangeCodeOf Config.p0 0x000E).map RangeCode.code = some 0xE := by decide
theorem test_wf_p0 : Config.p0.wf = true := by decide

/-! ### Decoding: words written out from 30_encoding.md R81 and 95_test_vectors.md 2.1 -/

theorem test_decode_framer : decode .command 0x010F1234 = some (.writeReg 0x0F 0x1234) ∧
    decode .command 0x0209BEEF = some (.readReg 0x09) := by decide
theorem test_decode_range : decode .command 0x1009000C = some (.setRange 9 0xC) ∧
    decode .command 0x1105FFFF = some (.getRange 5) := by decide
theorem test_decode_bitmask : decode .command 0x12030001 = some (.setPower 3 1) ∧
    decode .command 0x130F0000 = some (.setSync 15 0) ∧
    decode .command 0x14050002 = some (.setToggleMode 5 2) ∧
    decode .command 0x16090001 = some (.setBcastEn 9 1) := by decide
theorem test_decode_output : decode .command 0x150C8000 = some (.setOutput 12 0x8000) := by decide
theorem test_decode_trigger : decode .command 0x2000FFFF = some .triggerLdac ∧
    decode .command 0x20010000 = some .triggerAlarmReset ∧
    decode .command 0x20020000 = some .triggerDefaultsReset ∧
    decode .command 0x20030002 = some (.triggerToggle 2) ∧ decode .command 0x20040000 = none := by decide
theorem test_decode_identity : decode .command 0x30000000 = some .deviceIdentity ∧
    decode .command 0x31000000 = some .isResponding ∧ decode .command 0x40123456 = some .init ∧
    decode .command 0x50000000 = some .getLastStatus := by decide
theorem test_decode_unlisted : decode .command 0x00000000 = none ∧ decode .command 0x03000000 = none ∧
    decode .command 0x17000000 = none ∧ decode .command 0xFF000000 = none := by decide
/-- R85 to R88: `00aaaaaa v v`, `11aaaaaa 0 0`, three dummy bytes, status and value. -/
theorem test_decode_frames : decode .txFrame 0x001C8000 = some (.writeFrame 0x1C 0x8000) ∧
    decode .txFrame 0x00C10000 = some (.readRequestFrame 0x01) ∧
    decode .dataTx 0x00000000 = some (.readDataFrameTx 0x00) ∧
    decode .dataRx 0x005A1234 = some (.readDataFrameRx 0x5A 0x1234) := by decide
theorem test_decode_bad_frames : decode .txFrame 0x00400000 = none ∧ decode .txFrame 0x00C10001 = none ∧
    decode .dataTx 0x00AAAAAB = none ∧ decode .txFrame 0x01000000 = none := by decide
/-- R82: `err 0000 aux data`. -/
theorem test_decode_response : decode .response 0x005A1234 = some (.responseWord 0 0x5A 0x1234) ∧
    decode .response 0x20000000 = some (.responseWord 2 0 0) ∧ decode .response 0x20000001 = none ∧
    decode .response 0x60000000 = none := by decide
theorem test_table_words : decodeTableWord 32 0x12030001 = some (.setPower 3 1) ∧
    decodeTableWord 24 0x1C8000 = some (.writeFrame 0x1C 0x8000) ∧
    decodeTableWord 24 0xC10000 = some (.readRequestFrame 0x01) ∧
    decodeTableWord 24 0x555555 = some (.readDataFrameTx 0x55) ∧
    decodeTableWord 24 0x5A1234 = some (.readDataFrameRx 0x5A 0x1234) ∧
    decodeTableWord 32 0x005A1234 = some (.responseWord 0 0x5A 0x1234) ∧ decodeTableWord 16 0 = none := by decide

/-! ### One step of each operation (95_test_vectors.md part 2) -/

/-- F1, F8. -/
theorem test_write_reg : after seen (step (given 0x010F1234 [ok 1 2 3])) = some ([⟨0x0F, 0x12, 0x34⟩], [0]) ∧
    after (fun s => (s.trace, s.csN, s.responses)) (step (given 0x010F1234 [bad])) =
      some ([.cs false, .xfer ⟨0x0F, 0x12, 0x34⟩ .err, .wait 1, .cs true], true, [0x10000000]) := by decide
/-- F9, F14. -/
theorem test_read_reg : after seen (step (given 0x02020000 [ok 9 9 9, ok 0x5A 0x12 0x34])) =
      some ([⟨0xC2, 0, 0⟩, ⟨0, 0, 0⟩], [0x005A1234]) ∧
    after seen (step (given 0x023F0000 [])) = some ([], [0x40000000]) := by decide
/-- G1, G11. -/
theorem test_set_range : after (fun s => (seen s, s.rc)) (step (given 0x1009000C [ok 0 0 0])) =
      some (([⟨0x0C, 0x00, 0xC0⟩], [0]), #v[0, 0, 0x00C0, 0]) ∧
    after seen (step (given 0x10100003 [])) = some ([], [0x20000000]) := by decide
/-- The example of 41_range.md R143. -/
theorem test_get_range : after State.responses (step { given 0x11060000 [] with rc := #v[0, 0xA1AA, 0, 0] }) =
      some [0x00000001] ∧
    after State.responses (step { given 0x11070000 [] with rc := #v[0, 0xA1AA, 0, 0] }) = some [0x0000000A] := by
  decide
/-- B1, B14. -/
theorem test_set_power : after seen (step (given 0x12030001 [ok 0 0 0, ok 7 0xFF 0xFF, ok 0 0 0])) =
      some ([⟨0xC9, 0, 0⟩, ⟨0, 0, 0⟩, ⟨0x09, 0xFF, 0xF7⟩], [0]) ∧
    after (fun s => (s.lastStatus, s.lastStatusValid, s.responses))
      (step (given 0x12030001 [ok 0 0 0, ok 0x7E 0xFF 0xFF, bad])) = some (0x7E, true, [0x10000000]) := by decide
/-- B8, B9. -/
theorem test_set_sync : after seen (step (given 0x13030001 [ok 0 0 0, ok 7 0 0, ok 0 0 0])) =
      some ([⟨0xC6, 0, 0⟩, ⟨0, 0, 0⟩, ⟨0x06, 0x00, 0x08⟩], [0]) ∧
    after sent (step (given 0x13030000 [ok 0 0 0, ok 7 0xFF 0xFF, ok 0 0 0])) =
      some [⟨0xC6, 0, 0⟩, ⟨0, 0, 0⟩, ⟨0x06, 0xFF, 0xF7⟩] := by decide
/-- T2, T7. -/
theorem test_set_toggle_mode : after sent (step (given 0x14050001 [ok 0 0 0, ok 7 0xFF 0xFF, ok 0 0 0])) =
      some [⟨0xC8, 0, 0⟩, ⟨0, 0, 0⟩, ⟨0x08, 0xF7, 0xFF⟩] ∧
    after sent (step (given 0x140F0003 [ok 0 0 0, ok 7 0x12 0x34, ok 0 0 0])) =
      some [⟨0xC7, 0, 0⟩, ⟨0, 0, 0⟩, ⟨0x07, 0xD2, 0x34⟩] := by decide
/-- S7. -/
theorem test_set_output : after seen (step (given 0x150C8000 [ok 0 0 0])) = some ([⟨0x1C, 0x80, 0x00⟩], [0]) := by
  decide
/-- B10, and R163 with the polarity inverted. -/
theorem test_set_bcast_en : after sent (step (given 0x16000000 [ok 0 0 0, ok 7 0xFF 0xFF, ok 0 0 0])) =
      some [⟨0xC5, 0, 0⟩, ⟨0, 0, 0⟩, ⟨0x05, 0xFF, 0xFE⟩] ∧
    after sent (step { given 0x16000000 [ok 0 0 0, ok 7 0 0, ok 0 0 0] with
      cfg := { Config.p0 with bcastPolarity := .inverted } }) =
      some [⟨0xC5, 0, 0⟩, ⟨0, 0, 0⟩, ⟨0x05, 0x00, 0x01⟩] := by decide
/-- The examples of 43_output_trigger.md R182 to R185. -/
theorem test_triggers : after sent (step (given 0x20000000 [ok 0 0 0])) = some [⟨0x0E, 0x00, 0x10⟩] ∧
    after sent (step (given 0x20010000 [ok 0 0 0])) = some [⟨0x0E, 0x01, 0x00⟩] ∧
    after sent (step (given 0x20020000 [ok 0 0 0])) = some [⟨0x0E, 0x00, 0x0A⟩] ∧
    after sent (step (given 0x20030002 [ok 0 0 0])) = some [⟨0x0E, 0x00, 0x40⟩] ∧
    after seen (step (given 0x20030000 [])) = some ([], [0x30000000]) := by decide
/-- S5. -/
theorem test_device_identity : after seen (step (given 0x30000000 [ok 0 0 0, ok 7 0x0A 0x70])) =
    some ([⟨0xC1, 0, 0⟩, ⟨0, 0, 0⟩], [0x0000029C]) := by decide
/-- S4, I11. -/
theorem test_is_responding :
    after State.responses (step (given 0x31000000 [ok 0 0 0, ok 0x12 0xFF 0xFF])) = some [0] ∧
    after State.responses (step (given 0x31000000 [ok 0 0 0, ok 0 0xFF 0xFE])) = some [1] := by decide
/-- I13: the seventh exchange fails. -/
theorem test_init : after (fun s => (s.rc, s.phase, s.csN, s.responses))
      (step (given 0x40000000 [ok 0 0 0, ok 0 0 0, ok 0 0 0, ok 0 0 0, ok 0 0 0, ok 0 0 0, bad])) =
    some (#v[0xAAAA, 0x000A, 0, 0], .uninitialized, true, [0x10000000]) := by decide
/-- 95_test_vectors.md, GET_LAST_STATUS. -/
theorem test_get_last_status : after State.responses (step (given 0x50000000 [])) = some [0] ∧
    after State.responses (step { given 0x50000000 [] with
      phase := .initialized, lastStatus := 0x5A, lastStatusValid := true }) = some [0x005A0003] := by decide
/-- The example of 40_framer.md R120. -/
theorem test_write_frame : after (fun s => (s.trace, s.responses)) (step ((facing [ok 0 0 0]).withFetchWord 24 0x1C8000)) =
    some ([.cs false, .xfer ⟨0x1C, 0x80, 0⟩ (.ok ⟨0, 0, 0⟩), .wait 1, .cs true], []) := by decide
theorem test_read_frames : after sent (step ((facing [ok 0 0 0]).withFetchWord 24 0xC10000)) = some [⟨0xC1, 0, 0⟩] ∧
    after sent (step ((facing [ok 0 0 0]).withFetchWord 24 0x555555)) = some [⟨0x55, 0x55, 0x55⟩] ∧
    after (fun s => (s.lastStatus, s.lastStatusValid)) (step ((facing []).withFetchWord 24 0x5A1234)) =
      some (0x5A, true) := by decide
theorem test_response_word : after (fun s => (s.responses, s.busy))
    (step ((facing []).withFetchWord 32 0x005A1234)) = some ([0x005A1234], false) := by decide
/-- 95_test_vectors.md, program 3, step 13. -/
theorem test_invalid_operation : after seen (step (given 0x99000000 [])) = some ([], [0x50000000]) := by decide
/-- 40_framer.md R120 with all three waits (the expansion of F9), and 60_exceptions.md R236 in the guard. -/
theorem test_waits : after State.trace (step { given 0x010F1234 [ok 0 0 0] with
      cfg := { Config.p0 with tPre := 2, tGuard := 3, tCsHigh := 1 } }) =
      some [.cs false, .wait 2, .xfer ⟨0x0F, 0x12, 0x34⟩ (.ok ⟨0, 0, 0⟩), .wait 3, .cs true, .wait 1] ∧
    after (fun s => (s.busy, s.csN, s.seq, s.responses))
      (step (given 0x010F1234 [{ answer := .err, stall := some .guard }])) =
      some (true, false, .running (.writeReg 0x0F 0x1234) 2, []) := by decide
/-- 70_reset_and_hazards.md R261: reset while an operation hangs. -/
theorem test_reset_while_busy : after (fun s => (s.busy, s.csN, s.seq, s.trace))
    (step { facing [] with rst := true, busy := true, csN := false, seq := .running .triggerLdac 1 }) =
    some (false, true, .idle, []) := by decide

/-! ### Witnesses for the hypotheses of the statements -/

/-- Three frames of a read-modify-write on a register, the first two answered, the last as given. -/
def rmwFrames (addr : Byte) (v : Half) (r : XferResult) : Frames :=
  [(readRequestTx addr, .ok ⟨1, 2, 3⟩), (readDataTx 0, .ok ⟨7, 0, 0⟩), (writeTx addr v, r)]

/-- The environment's turns that give these answers. -/
def turns (fs : Frames) : List Turn := fs.map fun p => { answer := p.2 }

/-- The frames of a read, each answered as given. -/
def readFrames (addr : Byte) (r1 r2 : XferResult) : Frames := [(readRequestTx addr, r1), (readDataTx 0, r2)]

/-- Frames are answered so by the turns made from them. -/
def answered (fs : Frames) : Bool := (facing (turns fs)).answers fs

theorem witness_DecodeInvertsEncode : (Instr.responseWord 5 0 0).wf = true ∧ (Instr.responseWord 0 0xFF 0xFFFF).wf = true ∧
    (Instr.writeReg 0xFF 0xFFFF).wf = true := by decide

theorem witness_RangeFieldsPackFourToAWord : (0 : Fin 16).val / 4 = (3 : Fin 16).val / 4 ∧ (0 : Fin 16) ≠ 3 := by decide

theorem witness_ToggleModeAssignsItsField :
    toggleModeOf 0 = some .clearBoth ∧ toggleModeOf 3 = some .setBoth := by decide

theorem witness_WriteRegSendsOneWriteFrame :
    ((0x00 : Byte) ∉ State.reset.cfg.validAddrs ∧ (0x20 : Byte) ∉ State.reset.cfg.validAddrs) ∧
    ((0x01 : Byte) ∈ Config.p0.validAddrs ∧ answered [(writeTx 0x01 0, .ok ⟨0, 0, 0⟩)] = true) ∧
    ((0x1F : Byte) ∈ Config.p0.validAddrs ∧ answered [(writeTx 0x1F 0xFFFF, .err)] = true) := by decide

theorem witness_ReadRegAnswersStatusAndValue :
    (0x3F : Byte) ∉ State.reset.cfg.validAddrs ∧ (0x1F : Byte) ∈ Config.p0.validAddrs ∧
    answered (readFrames 0x1F (.ok ⟨0, 0, 0⟩) (.ok ⟨0, 0x80, 0⟩)) = true ∧
    answered [(readRequestTx 0x1F, .err)] = true ∧
    answered (readFrames 0x1F (.ok ⟨0, 0, 0⟩) .err) = true := by decide

theorem witness_SetRangeWritesTheWordThenTheCache :
    15 < (0x10 : Byte).toNat ∧ (0x0F : Byte).toNat = (15 : Fin 16).val ∧
    (∀ c ∈ State.reset.cfg.validRange, (0x3 : Half) ≠ c.setWidth 16) ∧
    ((0xE : BitVec 4) ∈ State.reset.cfg.validRange ∧ (0xE : Half) = (0xE : BitVec 4).setWidth 16) ∧
    answered [(writeTx 0x0D 0xE000, .ok ⟨0, 0, 0⟩)] = true ∧ answered [(writeTx 0x0D 0xE000, .err)] = true := by decide

theorem witness_SetRangeWithoutAnOkLeavesTheCache :
    ∃ t, exec (.setRange 0x0F 0xE) (facing [bad]) = .next t ∧ t.responses ≠ (facing [bad]).responses ++ [0] :=
  ⟨_, rfl, by decide⟩

theorem witness_GetRangeAnswersFromTheCache : 15 < (0x10 : Byte).toNat ∧ (0x0F : Byte).toNat = (15 : Fin 16).val := by
  decide

/-- The two clauses: a SET_RANGE that answers OK, and one that answers an error. -/
theorem witness_SetRangeThenGetRangeReturnsTheCode :
    (∃ t, exec (.setRange (BitVec.ofNat 8 (15 : Fin 16).val) 0xE) (facing [ok 0 0 0]) = .next t ∧ t.busy = false ∧
      t.responses = (facing [ok 0 0 0]).responses ++ [0]) ∧
    (∃ t, exec (.setRange (BitVec.ofNat 8 (15 : Fin 16).val) 0xE) (facing [bad]) = .next t ∧ t.busy = false ∧
      t.responses = (facing [bad]).responses ++ [0x10000000]) :=
  ⟨⟨_, rfl, rfl, rfl⟩, ⟨_, rfl, rfl, rfl⟩⟩

/-- Operands for a read-modify-write command with a 0 or 1 field: a channel too large, channel 15, a field too large, and
this field for this bit. -/
abbrev fieldOperands (b : Half) (bit : Bool) : Prop := 15 < (0x10 : Byte).toNat ∧ (0x0F : Byte).toNat = (15 : Fin 16).val ∧
  1 < (2 : Half).toNat ∧ b = (BitVec.ofBool bit).setWidth 16

theorem witness_SetPowerClearsTheBitToEnable : fieldOperands 0 false ∧
    answered (rmwFrames 0x09 (bitSet 0 15) (.ok ⟨0, 0, 0⟩)) = true ∧ answered (rmwFrames 0x09 (bitSet 0 15) .err) = true ∧
    answered [(readRequestTx 0x09, .err)] = true ∧ answered (readFrames 0x09 (.ok ⟨0, 0, 0⟩) .err) = true := by decide

theorem witness_SetSyncSetsTheBitForSync : fieldOperands 1 true ∧
    answered (rmwFrames 0x06 (bitSet 0 15) (.ok ⟨0, 0, 0⟩)) = true ∧ answered (rmwFrames 0x06 (bitSet 0 15) .err) = true ∧
    answered [(readRequestTx 0x06, .err)] = true ∧ answered (readFrames 0x06 (.ok ⟨0, 0, 0⟩) .err) = true := by decide

theorem witness_SetBcastEnFollowsThePolarity : fieldOperands 1 true ∧
    answered (rmwFrames 0x05 (bitSet 0 15) (.ok ⟨0, 0, 0⟩)) = true ∧ answered (rmwFrames 0x05 (bitSet 0 15) .err) = true ∧
    answered [(readRequestTx 0x05, .err)] = true ∧ answered (readFrames 0x05 (.ok ⟨0, 0, 0⟩) .err) = true := by decide

theorem witness_SetToggleModeEditsTheHalfsRegister :
    (15 < (0x10 : Byte).toNat ∧ 3 < (4 : Half).toNat ∧ toggleModeOf 3 = some .setBoth) ∧
    ((7 : Fin 16).val < 8 ∧ answered (rmwFrames 0x08 (toggleApply 0 7 .setBoth) (.ok ⟨0, 0, 0⟩)) = true) ∧
    (8 ≤ (8 : Fin 16).val ∧ answered (rmwFrames 0x07 (toggleApply 0 8 .setBoth) (.ok ⟨0, 0, 0⟩)) = true) ∧
    answered (rmwFrames 0x07 (toggleApply 0 8 .setBoth) .err) = true ∧ answered [(readRequestTx 0x08, .err)] = true ∧
    answered (readFrames 0x08 (.ok ⟨0, 0, 0⟩) .err) = true := by decide

/-- The device's power-down register holds 0, then 0x8000, then 0. -/
theorem witness_PowerPairLeavesTheBitCleared :
    (facing (turns (rmwFrames 0x09 0x8000 (.ok ⟨0, 0, 0⟩)) ++
      [ok 1 1 1, ok 7 0x80 0, ok 0 0 0])).answers (rmwFrames 0x09 (bitSet 0 15) (.ok ⟨0, 0, 0⟩)) = true ∧
    ∃ t, exec (.setPower (BitVec.ofNat 8 (15 : Fin 16).val) 0)
        (facing (turns (rmwFrames 0x09 0x8000 (.ok ⟨0, 0, 0⟩)) ++ [ok 1 1 1, ok 7 0x80 0, ok 0 0 0])) = .next t ∧
      (0x80#8 ++ 0x00#8) = bitSet 0 15 ∧
      t.answers [(readRequestTx 0x09, .ok ⟨1, 1, 1⟩), (readDataTx 0, .ok ⟨7, 0x80, 0⟩),
        (writeTx 0x09 (bitClear 0 15), .ok ⟨0, 0, 0⟩)] = true :=
  ⟨by decide, _, rfl, by decide, by decide⟩

theorem witness_SetOutputWritesTheChannelsRegister : 15 < (0x10 : Byte).toNat ∧ (0x0F : Byte).toNat ≤ 15 ∧
    answered [(writeTx 0x1F 0xFFFF, .ok ⟨0, 0, 0⟩)] = true ∧ answered [(writeTx 0x1F 0xFFFF, .err)] = true := by decide

theorem witness_TriggersWriteTheirPayload :
    (answered [(writeTx 0x0E 0x0010, .ok ⟨0, 0, 0⟩)] = true ∧ answered [(writeTx 0x0E 0x0010, .err)] = true) ∧
    (answered [(writeTx 0x0E 0x0100, .ok ⟨0, 0, 0⟩)] = true ∧ answered [(writeTx 0x0E 0x0100, .err)] = true) ∧
    (answered [(writeTx 0x0E 0x000A, .ok ⟨0, 0, 0⟩)] = true ∧ answered [(writeTx 0x0E 0x000A, .err)] = true) := by
  decide

theorem witness_TriggerToggleWritesTheSelectedPayload : 3 < (4 : Half).toNat ∧
    (answered [(writeTx 0x0E 0x0020, .ok ⟨0, 0, 0⟩)] = true ∧ answered [(writeTx 0x0E 0x0020, .err)] = true) ∧
    (answered [(writeTx 0x0E 0x0040, .ok ⟨0, 0, 0⟩)] = true ∧ answered [(writeTx 0x0E 0x0040, .err)] = true) ∧
    (answered [(writeTx 0x0E 0x0080, .ok ⟨0, 0, 0⟩)] = true ∧ answered [(writeTx 0x0E 0x0080, .err)] = true) := by
  decide

/-- The device-ID register: the same frames for both operations that read it. -/
theorem witness_DeviceIdentitySplitsTheIdRegister :
    answered (readFrames 0x01 (.ok ⟨0, 0, 0⟩) (.ok ⟨7, 0x0A, 0x70⟩)) = true ∧
    answered [(readRequestTx 0x01, .err)] = true ∧ answered (readFrames 0x01 (.ok ⟨0, 0, 0⟩) .err) = true := by decide

theorem witness_IsRespondingJudgesTheIdValue :
    answered (readFrames 0x01 (.ok ⟨0, 0, 0⟩) (.ok ⟨0, 0xFF, 0xFF⟩)) = true ∧
    answered (readFrames 0x01 (.ok ⟨0, 0, 0⟩) (.ok ⟨0xFF, 0x0A, 0x70⟩)) = true ∧
    answered [(readRequestTx 0x01, .err)] = true ∧ answered (readFrames 0x01 (.ok ⟨0, 0, 0⟩) .err) = true := by decide

/-- Seventeen answered frames; a failure of the first frame; a failure of the last. -/
theorem witness_InitWritesSeventeenFrames :
    ((List.replicate 17 (⟨0, 0, 0⟩ : Bytes3)).length = 17 ∧ answered ((initTxs Config.p0 State.reset.rc).zip
      ((List.replicate 17 (⟨0, 0, 0⟩ : Bytes3)).map .ok)) = true) ∧
    ((initTxs Config.p0 State.reset.rc)[0]? = some ⟨0x03, 0x0A, 0x84⟩ ∧
      answered [(⟨0x03, 0x0A, 0x84⟩, .err)] = true) ∧
    ((initTxs Config.p0 State.reset.rc)[16]? = some ⟨0x0D, 0xAA, 0xAA⟩ ∧
      answered ((initTxs Config.p0 State.reset.rc).zip ((List.replicate 16 (⟨0, 0, 0⟩ : Bytes3)).map .ok) ++
        [(⟨0x0D, 0xAA, 0xAA⟩, .err)]) = true) := by decide

theorem witness_FrameRowsPerformOneFrame : answered [(⟨0x3F, 0xFF, 0xFF⟩, .ok ⟨1, 2, 3⟩)] = true ∧
    answered [(⟨0xFF, 0, 0⟩, .err)] = true ∧ answered [(⟨0x55, 0x55, 0x55⟩, .err)] = true := by decide

theorem witness_StepRunsTheDecodedCommand : (given 0x010F1234 []).rst = false ∧ (given 0x010F1234 []).busy = false ∧
    (given 0x010F1234 []).host = [0x010F1234] ∧ decode .command 0x010F1234 = some (.writeReg 0x0F 0x1234) := by decide

theorem witness_StepRunsThePlacedTableWord :
    (decodeTableWord 32 0x010F1234 = some (.writeReg 0x0F 0x1234) ∧ (Instr.writeReg 0x0F 0x1234).isCommand = true) ∧
    (decodeTableWord 24 0x000000 = some (.writeFrame 0 0) ∧ (Instr.writeFrame 0 0).isCommand = false) := by decide

theorem witness_UnlistedWordsAnswerInvalidOperation : (given 0x20040000 []).rst = false ∧
    (given 0x20040000 []).busy = false ∧ (given 0x20040000 []).host = [0x20040000] ∧ unlisted 0x20040000 = true := by
  decide

theorem witness_BlockWaitsWithoutCommandOrAnswer :
    (State.reset.rst = false ∧ State.reset.busy = false ∧ State.reset.host = []) ∧
    ∃ t, step (given 0x010F1234 [silent]) = .next t ∧ t.rst = false ∧ t.busy = true ∧
      t.seq = .running (.writeReg 0x0F 0x1234) (0 + 1) :=
  ⟨by decide, _, rfl, rfl, rfl, rfl⟩

theorem witness_ResetInputRestoresTheBlock : ({ facing [] with rst := true, busy := true } : State).rst = true := by
  decide

/-- A command that is answered, and one that the environment holds. -/
theorem witness_CommandsAnswerOnceOrAreHeld : Instr.triggerLdac.isCommand = true ∧
    (∃ t, exec .triggerLdac (facing [ok 0 0 0]) = .next t ∧ t.busy = false) ∧
    (∃ t, exec .triggerLdac (facing [silent]) = .next t ∧ t.busy = true) :=
  ⟨rfl, ⟨_, rfl, rfl⟩, ⟨_, rfl, rfl⟩⟩

/-- The reply of a silent environment is `none` for every frame, which meets every clause. -/
theorem witness_UnansweredFirstFramesHoldTheBlock : (∀ tx, (facing [silent]).reply tx = none) ∧
    (0x1F : Byte) ∈ (facing [silent]).cfg.validAddrs ∧ (0xE : BitVec 4) ∈ (facing [silent]).cfg.validRange :=
  ⟨fun _ => rfl, by decide, by decide⟩

theorem witness_OnlySetRangeAndInitWriteTheCache :
    ∃ t, exec .triggerLdac (facing [ok 0 0 0]) = .next t ∧ Instr.triggerLdac.writesRanges = false := ⟨_, rfl, rfl⟩

theorem witness_OnlyInitSetsThePhase : ∃ t, exec .init (facing (List.replicate 17 (ok 0 0 0))) = .next t ∧
    t.phase ≠ (facing (List.replicate 17 (ok 0 0 0))).phase := ⟨_, rfl, by decide⟩

/-- The two clauses: an operation that reads nothing, and a state whose status byte is valid. -/
theorem witness_OnlyReadsWriteTheLastStatus :
    (∃ t, exec .triggerLdac (facing [ok 0 0 0]) = .next t ∧ Instr.triggerLdac.readsDevice = false) ∧
    (∃ t, exec .deviceIdentity { facing [bad] with lastStatusValid := true } = .next t ∧
      ({ facing [bad] with lastStatusValid := true } : State).lastStatusValid = true) := ⟨⟨_, rfl, rfl⟩, ⟨_, rfl, rfl⟩⟩

theorem witness_ParametersAndInputsAreLeftAlone : (∃ t, exec .triggerLdac (facing [ok 0 0 0]) = .next t) ∧
    (∃ t, step (given 0x20000000 [ok 0 0 0]) = .next t) := ⟨⟨_, rfl⟩, ⟨_, rfl⟩⟩

/-- An operation with a failed exchange among its events. -/
theorem witness_FramesPerOperationAreBounded : ∃ t, exec .triggerLdac (facing [bad]) = .next t ∧
    t.trace = (facing [bad]).trace ++ ([.cs false] ++ .xfer ⟨0x0E, 0x00, 0x10⟩ .err :: [.wait 1, .cs true]) ∧
    (Event.xfer ⟨0x0E, 0x00, 0x10⟩ .err).isFailedXfer = true := ⟨_, rfl, by decide, rfl⟩

theorem given_framed (w : Word) (ts : List Turn) : (given w ts).Framed :=
  ⟨⟨.rest, rfl, rfl, rfl⟩, by simp [given, facing, State.reset, State.resetWith]⟩

theorem witness_FramingIsKeptByEveryStep : (given 0x20000000 [silent]).Framed ∧
    ∃ t, step (given 0x20000000 [silent]) = .next t := ⟨given_framed _ _, _, rfl⟩

/-- A range field that holds a code, beside fields still zero. -/
theorem witness_ValidRangesAreKeptByEveryStep :
    ({ given 0x1009000C [ok 0 0 0] with rc := #v[0x000A, 0, 0, 0] } : State).RangesValid ∧
    ∃ t, step { given 0x1009000C [ok 0 0 0] with rc := #v[0x000A, 0, 0, 0] } = .next t :=
  ⟨by unfold State.RangesValid; decide, _, rfl⟩

theorem witness_OnlyAllowedFramesReachTheWire : (given 0x20000000 [ok 0 0 0]).WireAllowed ∧
    ∃ t, step (given 0x20000000 [ok 0 0 0]) = .next t :=
  ⟨⟨by simp [given, facing, State.reset, State.resetWith], by simp [given, facing, State.reset, State.resetWith]⟩, _,
    rfl⟩

/-- TRIGGER_LDAC writes no range field. -/
theorem trigger_quiet (k : Fin 16) (s : State) (hr : s.rst = false) (hh : s.host = [0x20000000]) (hq : s.seq = .idle) :
    s.RangeQuiet k := by
  refine ⟨hr, fun w hw i hi => ?_, fun i n h => by rw [hq] at h; cases h⟩
  obtain rfl : w = 0x20000000 := by simpa [hh] using hw
  cases hi.symm.trans (show decode .command 0x20000000 = some .triggerLdac by decide)
  rfl

/-- SET_RANGE 15, 0xE, after which the host presents TRIGGER_LDAC. -/
theorem witness_CacheStaysCoherentOverASession : ∃ t u,
    exec (.setRange (BitVec.ofNat 8 (15 : Fin 16).val) 0xE) (given 0x20000000 [ok 0 0 0, bad]) = .next t ∧
    t.responses = (given 0x20000000 [ok 0 0 0, bad]).responses ++ [0] ∧ t.RangeQuiet 15 ∧
    Host.Core.run Sys2Proof.core 1 t = .next u :=
  ⟨_, _, rfl, rfl, trigger_quiet 15 _ rfl rfl rfl, rfl⟩

/-- Channel 15 at 0xE, and TRIGGER_LDAC presented. -/
theorem witness_RangeFieldIsHeldByEveryStep :
    ({ given 0x20000000 [ok 0 0 0] with rc := #v[0, 0, 0, 0xE000] } : State).RangeHeld 15 0xE ∧
    ∃ t, step { given 0x20000000 [ok 0 0 0] with rc := #v[0, 0, 0, 0xE000] } = .next t :=
  ⟨⟨trigger_quiet 15 _ rfl rfl rfl, by decide⟩, _, rfl⟩

end Sys2Proof.Tests
end

section
/-! What an operation and a step leave alone at the block's boundary: the parameters, the host's words and the reset
input (spec/00_scope.md R8). -/

namespace Sys2Proof.Machine

/-- `t` has the parameters, the words the host has still to present, and the reset input of `s` (00_scope.md R8; log 3,
log 5, log 6). -/
def State.SameOutside (s t : State) : Prop := t.cfg = s.cfg ∧ t.host = s.host ∧ t.rst = s.rst

/-- Each update an operation is built from writes other fields only: a complete and a held frame transaction, acceptance,
response, return to IDLE, and the writes of the status byte, the range cache and the phase. -/
theorem exec_sameOutside {i : Instr} {s t : State} (h : exec i s = .next t) : s.SameOutside t :=
  exec_holds (P := s.SameOutside) h ⟨rfl, rfl, rfl⟩ (fun _ _ _ h => h) (fun _ _ _ h => h) (fun _ _ h => h)
    (fun _ _ h => h) (fun _ h => h) (fun _ _ _ h => h) (fun _ _ _ _ h => h) (fun _ _ h => h)

/-- The four things one step can be: block reset, a wait, an operation from its first event, a refused command word. -/
theorem step_cases {s t : State} (h : step s = .next t) :
    (nextOf s = .reset ∧ t = s.blockReset) ∨ (nextOf s = .stay ∧ t = s) ∨
      (∃ i s', nextOf s = .run i s' ∧ exec i s' = .next t) ∨
      (∃ s', nextOf s = .invalid s' ∧ t = s'.raise .invalidOperation) := by
  unfold step at h
  cases hn : nextOf s with
  | reset => rw [hn] at h; injection h with h; exact .inl ⟨rfl, h.symm⟩
  | stay => rw [hn] at h; injection h with h; exact .inr (.inl ⟨rfl, h.symm⟩)
  | run i s' => rw [hn] at h; exact .inr (.inr (.inl ⟨i, s', rfl, h⟩))
  | invalid s' => rw [hn] at h; injection h with h; exact .inr (.inr (.inr ⟨s', rfl, h.symm⟩))

/-- An operation is taken from the sequencer, or from the host port at the cost of the presented word. -/
theorem nextOf_run_cfg {s s' : State} {i : Instr} (h : nextOf s = .run i s') : s'.cfg = s.cfg := by
  obtain ⟨-, ⟨-, -, rfl⟩ | ⟨w, rest, -, -, -, rfl⟩⟩ := nextOf_run h
  · rfl
  · rfl

theorem nextOf_invalid_cfg {s s' : State} (h : nextOf s = .invalid s') : s'.cfg = s.cfg := by
  obtain ⟨-, -, w, rest, -, -, rfl⟩ := nextOf_invalid h
  rfl

/-- No step writes the parameters; block reset is no exception (10_state.md R43). -/
theorem step_cfg {s t : State} (h : step s = .next t) : t.cfg = s.cfg := by
  obtain ⟨-, rfl⟩ | ⟨-, rfl⟩ | ⟨i, s', hn, he⟩ | ⟨s', hn, rfl⟩ := step_cases h
  · exact State.blockReset_cfg s
  · rfl
  · obtain ⟨hcfg, -, -⟩ := exec_sameOutside he
    exact hcfg.trans (nextOf_run_cfg hn)
  · exact (State.raise_cfg _ s').trans (nextOf_invalid_cfg hn)

/-- Settles O41: an operation by what each of its updates leaves alone, a step by the four things it can be. -/
theorem parametersAndInputsAreLeftAlone : Obligations.ParametersAndInputsAreLeftAlone :=
  ⟨fun _ _ _ h => exec_sameOutside h, fun _ _ h => step_cfg h⟩

end Sys2Proof.Machine
end

section
/-! How the pieces of an operation end: a judgement that tells a run that goes on from one that raises or is held, so that
a property can hold of the completed run alone (spec/00_scope.md R12). -/

namespace Sys2Proof.Machine

/-- A run that goes on has `D` of its result and state; a run that raises or is held has `K` of its state. -/
def Run.Ends {α : Type} (D : α → State → Prop) (K : State → Prop) : Run α → Prop
  | .done a s => D a s
  | .raised _ s => K s
  | .hung s => K s

theorem Run.Holds.ends {α : Type} {P : State → Prop} {r : Run α} (h : r.Holds P) : r.Ends (fun _ => P) P := by
  cases r with
  | done a s => exact h
  | raised e s => exact h
  | hung s => exact h

theorem Run.Ends.weaken {α : Type} {D D' : α → State → Prop} {K K' : State → Prop} {r : Run α} (h : r.Ends D K)
    (hD : ∀ a s, D a s → D' a s) (hK : ∀ s, K s → K' s) : r.Ends D' K' := by
  cases r with
  | done a s => exact hD a s h
  | raised e s => exact hK s h
  | hung s => exact hK s h

theorem Run.Ends.bind {α β : Type} {D : α → State → Prop} {D' : β → State → Prop} {K : State → Prop} {r : Run α}
    {f : α → State → Run β} (h : r.Ends D K) (hf : ∀ a s, D a s → (f a s).Ends D' K) : (r.bind f).Ends D' K := by
  cases r with
  | done a s => exact hf a s h
  | raised e s => exact h
  | hung s => exact h

theorem require_ends {α : Type} {D : α → State → Prop} {K : State → Prop} (e : ErrorCode) (o : Option α) {s : State}
    (hD : ∀ a, D a s) (hK : K s) : (require e o s).Ends D K := by
  cases o with
  | none => exact hK
  | some a => exact hD a

/-- The state a host command leaves: the OK response after a run that goes on, an error response after a raise, and no
response while the run is held (30_encoding.md R82, 60_exceptions.md R228, R236). -/
theorem Run.Ends.conclude {D : Byte × Half → State → Prop} {K P : State → Prop} {r : Run (Byte × Half)}
    (h : r.Ends D K) (hdone : ∀ a s, D a s → P (s.respond (responseOf .ok a.1 a.2)))
    (hraised : ∀ e s, K s → P (s.raise e)) (hheld : ∀ s, K s → P s) : P r.conclude := by
  cases r with
  | done a s => exact hdone a s h
  | raised e s => exact hraised e s h
  | hung s => exact hheld s h

end Sys2Proof.Machine
end

section
/-! The range field of a channel: what a merge into the range cache changes and what it leaves (spec/30_encoding.md R92,
41_range.md R141). -/

namespace Sys2Proof.Machine

theorem rangeShift_le (ch : Fin 16) : rangeShift ch ≤ 12 := by unfold rangeShift; omega

/-- The mask of R92 is a four-bit field of ones at the channel's offset. -/
theorem getLsbD_rangeMask (ch : Fin 16) (j : Nat) :
    (rangeMask ch).getLsbD j = decide (rangeShift ch ≤ j ∧ j < rangeShift ch + 4) := by
  have hs := rangeShift_le ch
  have hones : 0x000F#16 = (BitVec.allOnes 4).setWidth 16 := rfl
  rw [Bool.eq_iff_iff, rangeMask, hones]
  simp only [BitVec.getLsbD_shiftLeft, BitVec.getLsbD_setWidth, BitVec.getLsbD_allOnes, Bool.and_eq_true,
    Bool.not_eq_true', decide_eq_true_eq, decide_eq_false_iff_not]
  omega

/-- Bit by bit, the merge is the code on the channel's four bits and the old word elsewhere (30_encoding.md R92). -/
theorem getLsbD_rangeEncode (w : Half) (ch : Fin 16) (code : BitVec 4) (j : Nat) :
    (rangeEncode w ch code).getLsbD j =
      if rangeShift ch ≤ j ∧ j < rangeShift ch + 4 then code.getLsbD (j - rangeShift ch) else w.getLsbD j := by
  have hs := rangeShift_le ch
  simp only [rangeEncode, BitVec.getLsbD_or, BitVec.getLsbD_and, BitVec.getLsbD_not, getLsbD_rangeMask,
    BitVec.getLsbD_shiftLeft, BitVec.getLsbD_setWidth]
  split
  case isTrue h =>
    have h1 : j < 16 := by omega
    have h2 : j - rangeShift ch < 16 := by omega
    simp [h, h1, h2]
  case isFalse h =>
    by_cases hj : j < 16
    · by_cases hlow : j < rangeShift ch
      · simp [hj, hlow, h]
      · simp [hj, h, BitVec.getLsbD_of_ge code (j - rangeShift ch) (by omega)]
    · simp [hj, BitVec.getLsbD_of_ge w j (by omega)]

theorem getLsbD_rangeDecode (w : Half) (ch : Fin 16) (j : Nat) :
    (rangeDecode w ch).getLsbD j = (decide (j < 4) && w.getLsbD (rangeShift ch + j)) := by
  simp [rangeDecode]

/-- The first law of R92: the field just merged decodes to its code. -/
theorem rangeDecode_rangeEncode_self (w : Half) (ch : Fin 16) (code : BitVec 4) :
    rangeDecode (rangeEncode w ch code) ch = code := by
  apply BitVec.eq_of_getLsbD_eq
  intro j hj
  rw [getLsbD_rangeDecode, getLsbD_rangeEncode, if_pos (by omega), Nat.add_sub_cancel_left]
  simp [hj]

/-- The second law of R92: the other fields of the word are as before. -/
theorem rangeDecode_rangeEncode_ne {ch k : Fin 16} (hi : rangeIndex k = rangeIndex ch) (hne : k ≠ ch) (w : Half)
    (code : BitVec 4) : rangeDecode (rangeEncode w ch code) k = rangeDecode w k := by
  have hdiv : k.val / 4 = ch.val / 4 := congrArg Fin.val hi
  have hval : k.val ≠ ch.val := fun h => hne (Fin.ext h)
  apply BitVec.eq_of_getLsbD_eq
  intro j hj
  have hout : ¬ (rangeShift ch ≤ rangeShift k + j ∧ rangeShift k + j < rangeShift ch + 4) := by
    unfold rangeShift; omega
  rw [getLsbD_rangeDecode, getLsbD_rangeDecode, getLsbD_rangeEncode, if_neg hout]

/-- The field of channel `k` in the range cache, as GET_RANGE decodes it (41_range.md R143). -/
def State.rangeField (k : Fin 16) (s : State) : RawRange := rangeDecode (s.readRC (rangeIndex k)) k

/-- The range cache with the code merged into the channel's field (41_range.md R141). -/
def State.mergeRange (ch : Fin 16) (code : BitVec 4) (s : State) : State :=
  s.writeRC (rangeIndex ch) (rangeEncode (s.readRC (rangeIndex ch)) ch code)

@[simp] theorem State.mergeRange_cfg (ch : Fin 16) (code : BitVec 4) (s : State) :
    (s.mergeRange ch code).cfg = s.cfg := rfl

@[simp] theorem State.rangeField_mergeRange_self (ch : Fin 16) (code : BitVec 4) (s : State) :
    (s.mergeRange ch code).rangeField ch = code := by
  rw [State.rangeField, State.mergeRange, State.readRC_writeRC_self, rangeDecode_rangeEncode_self]

theorem State.rangeField_mergeRange_ne {ch k : Fin 16} (hne : k ≠ ch) (code : BitVec 4) (s : State) :
    (s.mergeRange ch code).rangeField k = s.rangeField k := by
  unfold State.rangeField State.mergeRange
  by_cases hi : rangeIndex k = rangeIndex ch
  · rw [hi, State.readRC_writeRC_self, rangeDecode_rangeEncode_ne hi hne]
  · rw [State.readRC_writeRC_ne hi]

/-- SET_RANGE's body is one write frame, then the merge into a cache the frame left alone (41_range.md R141): a property
that survives frame transactions holds before the merge, and of every run that does not reach it. -/
theorem storeRange_ends {P : State → Prop} {valid : List (BitVec 4)} (ch : Fin 16) (code : RangeCode valid)
    {s : State} (h : P s)
    (h1 : ∀ s tx r, P s → P (State.afterFrame tx r s)) (h2 : ∀ s evs l, P s → P (State.heldAt evs l s)) :
    (storeRange ch code s).Ends (fun _ t => ∃ u, P u ∧ t = u.mergeRange ch code.code) P := by
  have hw := memWrite_holds (P := fun u => P u ∧ u.readRC (rangeIndex ch) = s.readRC (rangeIndex ch))
    (rangeAddr s.cfg (rangeIndex ch)) (rangeEncode (s.readRC (rangeIndex ch)) ch code.code) ⟨h, rfl⟩
    (fun _ _ _ ⟨hP, hrc⟩ => ⟨h1 _ _ _ hP, hrc⟩) (fun _ _ _ ⟨hP, hrc⟩ => ⟨h2 _ _ _ hP, hrc⟩)
  refine (hw.ends.weaken (fun _ _ hu => hu) fun _ ⟨hP, _⟩ => hP).bind fun _ u ⟨hP, hrc⟩ => ?_
  exact ⟨u, hP, by rw [State.mergeRange, hrc]⟩

end Sys2Proof.Machine
end

section
/-! The range cache holds valid codes (spec/10_state.md R22): every operation and every step keeps it so. -/

namespace Sys2Proof.Machine

/-- The fields of the listed channels hold valid codes, whatever the phase: what INIT's loop has reached when it has
stored the default range for these channels (44_identity_init.md R204). -/
def State.RangesStored (chs : List (Fin 16)) (s : State) : Prop := ∀ k ∈ chs, s.rangeField k ∈ s.cfg.validRange

theorem State.RangesValid.mergeRange {s : State} (h : s.RangesValid) (ch : Fin 16) {code : BitVec 4}
    (hc : code ∈ s.cfg.validRange) : (s.mergeRange ch code).RangesValid := by
  intro k
  change (s.mergeRange ch code).rangeField k ∈ s.cfg.validRange ∨
    (s.phase = .uninitialized ∧ (s.mergeRange ch code).rangeField k = 0)
  by_cases hk : k = ch
  · subst hk
    rw [State.rangeField_mergeRange_self]
    exact .inl hc
  · rw [State.rangeField_mergeRange_ne hk]
    exact h k

theorem State.RangesStored.mergeRange {chs : List (Fin 16)} {s : State} (h : s.RangesStored chs) (ch : Fin 16)
    {code : BitVec 4} (hc : code ∈ s.cfg.validRange) : (s.mergeRange ch code).RangesStored (ch :: chs) := by
  intro k hk
  rw [State.mergeRange_cfg]
  by_cases hkc : k = ch
  · subst hkc
    rwa [State.rangeField_mergeRange_self]
  · rw [State.rangeField_mergeRange_ne hkc]
    exact h k ((List.mem_cons.mp hk).resolve_left hkc)

/-- With every field stored, the phase may be Initialized (10_state.md R22, R24). -/
theorem State.RangesStored.setInitialized {s : State} (h : s.RangesStored allChannels) :
    s.setInitialized.RangesValid := by
  intro k
  have hk : k ∈ allChannels := by revert k; decide
  exact .inl (h k hk)

theorem storeRange_rangesStored {valid : List (BitVec 4)} {ch : Fin 16} {code : RangeCode valid}
    {chs : List (Fin 16)} {s : State} (hv : s.RangesValid) (hs : s.RangesStored chs)
    (hc : code.code ∈ s.cfg.validRange) :
    (storeRange ch code s).Ends (fun _ t => t.RangesValid ∧ t.RangesStored (ch :: chs)) State.RangesValid := by
  have h := storeRange_ends (P := fun u => u.RangesValid ∧ u.RangesStored chs ∧ code.code ∈ u.cfg.validRange)
    ch code ⟨hv, hs, hc⟩ (fun _ _ _ hu => hu) (fun _ _ _ hu => hu)
  refine h.weaken ?_ fun _ ⟨huv, _⟩ => huv
  rintro - - ⟨u, ⟨huv, hus, huc⟩, rfl⟩
  exact ⟨huv.mergeRange ch huc, hus.mergeRange ch huc⟩

/-- INIT's loop keeps the fields valid wherever it stops, and has stored every listed field when it completes
(44_identity_init.md R204). -/
theorem initRanges_rangesStored (chs stored : List (Fin 16)) {s : State} (hv : s.RangesValid)
    (hs : s.RangesStored stored) :
    (initRanges chs s).Ends (fun _ t => t.RangesValid ∧ t.RangesStored (chs.reverse ++ stored))
      State.RangesValid := by
  induction chs generalizing stored s with
  | nil => exact ⟨hv, hs⟩
  | cons ch rest ih =>
    refine (storeRange_rangesStored hv hs s.cfg.defaultRange.mem).bind fun _ t ⟨htv, hts⟩ => ?_
    simpa using ih (ch :: stored) htv hts

theorem Run.Ends.conclude_rangesValid {r : Run (Byte × Half)}
    (h : r.Ends (fun _ => State.RangesValid) State.RangesValid) : r.conclude.RangesValid :=
  h.conclude (fun _ _ hs => hs) (fun _ _ hs => hs) fun _ hs => hs

/-- SET_RANGE stores only a code that passed its check (30_encoding.md R91). -/
theorem exec_setRange_rangesValid {ch : Byte} {b : Half} {s t : State} (hv : s.RangesValid)
    (h : exec (.setRange ch b) s = .next t) : t.RangesValid := by
  injection h with h
  subst h
  refine Run.Ends.conclude_rangesValid
    ((require_ends (D := fun _ => State.RangesValid) _ _ (s := s.accept _) (fun _ => hv) hv).bind fun k s1 hv1 => ?_)
  refine (require_ends (D := fun c u => u.RangesValid ∧ c.code ∈ u.cfg.validRange) _ _ (fun c => ⟨hv1, c.mem⟩)
    hv1).bind fun c s2 ⟨hv2, hc⟩ => ?_
  exact (storeRange_rangesStored (chs := []) hv2 (by simp [State.RangesStored]) hc).bind fun _ s3 ⟨hv3, _⟩ => hv3

/-- INIT sets the phase only after every field holds the default range (44_identity_init.md R204). -/
theorem exec_init_rangesValid {s t : State} (hv : s.RangesValid) (h : exec .init s = .next t) : t.RangesValid := by
  injection h with h
  subst h
  have hfirst := memWrite_holds (P := State.RangesValid) s.cfg.aSpiConfig s.cfg.spiConfigInit
    (s := s.accept .init) hv (fun _ _ _ hu => hu) (fun _ _ _ hu => hu)
  refine Run.Ends.conclude_rangesValid (hfirst.ends.bind fun _ s1 hv1 => ?_)
  refine (initRanges_rangesStored allChannels [] hv1 (by simp [State.RangesStored])).bind fun _ s2 ⟨_, hs2⟩ => ?_
  exact State.RangesStored.setInitialized fun k hk => hs2 k (by simpa using hk)

/-- The operations that do not write the cache: none of their updates touches the cache, the phase or the parameters. -/
theorem exec_rangesValid_of_writesRanges_false {i : Instr} {s t : State} (hi : i.writesRanges = false)
    (hv : s.RangesValid) (h : exec i s = .next t) : t.RangesValid :=
  exec_holds (P := State.RangesValid) h hv (fun _ _ _ hu => hu) (fun _ _ _ hu => hu) (fun _ _ hu => hu)
    (fun _ _ hu => hu) (fun _ hu => hu) (fun _ _ _ hu => hu) (fun hw => by simp [hi] at hw)
    (fun he => by subst he; simp [Instr.writesRanges] at hi)

/-- The two operations of R21 (10_state.md). -/
theorem writesRanges_iff {i : Instr} : i.writesRanges = true ↔ (∃ ch b, i = .setRange ch b) ∨ i = .init := by
  cases i <;> simp [Instr.writesRanges]

theorem exec_rangesValid {i : Instr} {s t : State} (hv : s.RangesValid) (h : exec i s = .next t) :
    t.RangesValid := by
  by_cases hi : i.writesRanges = true
  · obtain ⟨ch, b, rfl⟩ | rfl := writesRanges_iff.mp hi
    · exact exec_setRange_rangesValid hv h
    · exact exec_init_rangesValid hv h
  · exact exec_rangesValid_of_writesRanges_false (by simpa using hi) hv h

/-- Every channel's field of a zero cache is 0 (10_state.md R43). -/
theorem State.rangeField_of_zero {s : State} (h : s.rc = #v[0x0000, 0x0000, 0x0000, 0x0000]) (k : Fin 16) :
    s.rangeField k = 0 := by
  have hword : ∀ i : Fin 4, s.readRC i = 0 := by
    intro i
    rw [State.readRC, h]
    revert i
    decide
  rw [State.rangeField, hword]
  simp [rangeDecode]

/-- The zero cache of R43 is as it should be while the phase is Uninitialized. -/
theorem State.rangesValid_of_zero {s : State} (hp : s.phase = .uninitialized)
    (h : s.rc = #v[0x0000, 0x0000, 0x0000, 0x0000]) : s.RangesValid :=
  fun k => .inr ⟨hp, State.rangeField_of_zero h k⟩

/-- Settles O45: by the four things a step can be. An operation stores only codes that passed their check or the default
range, and sets the phase only when every field is stored. -/
theorem validRangesAreKeptByEveryStep : Obligations.ValidRangesAreKeptByEveryStep := by
  intro s t hv h
  obtain ⟨-, rfl⟩ | ⟨-, rfl⟩ | ⟨i, s', hn, he⟩ | ⟨s', hn, rfl⟩ := step_cases h
  · exact State.rangesValid_of_zero rfl rfl
  · exact hv
  · obtain ⟨-, ⟨-, -, rfl⟩ | ⟨w, rest, -, -, -, rfl⟩⟩ := nextOf_run hn
    · exact exec_rangesValid hv he
    · exact exec_rangesValid (s := { s with host := rest }) hv he
  · obtain ⟨-, -, w, rest, -, -, rfl⟩ := nextOf_invalid hn
    exact hv

/-- Settles O46: the cache is zero and the phase Uninitialized. -/
theorem validRangesHoldAtReset : Obligations.ValidRangesHoldAtReset :=
  fun _ => State.rangesValid_of_zero rfl rfl

end Sys2Proof.Machine
end

section
/-! Who writes which piece of the block's state (spec/10_state.md R21, R24, R26, R29). -/

namespace Sys2Proof.Machine

/-- Settles O38: no other update an operation is built from writes the cache. -/
theorem onlySetRangeAndInitWriteTheCache : Obligations.OnlySetRangeAndInitWriteTheCache := by
  intro i s t h hi
  exact exec_holds (P := fun u => u.rc = s.rc) h rfl (fun _ _ _ hu => hu) (fun _ _ _ hu => hu) (fun _ _ hu => hu)
    (fun _ _ hu => hu) (fun _ hu => hu) (fun _ _ _ hu => hu) (fun hw => by simp [hi] at hw) (fun _ _ hu => hu)

/-- Of an operation's updates only `setInitialized` writes the phase, and only INIT has it. -/
theorem exec_phase_of_ne_init {i : Instr} {s t : State} (hi : i ≠ .init) (h : exec i s = .next t) :
    t.phase = s.phase :=
  exec_holds (P := fun u => u.phase = s.phase) h rfl (fun _ _ _ hu => hu) (fun _ _ _ hu => hu) (fun _ _ hu => hu)
    (fun _ _ hu => hu) (fun _ hu => hu) (fun _ _ _ hu => hu) (fun _ _ _ _ hu => hu) (fun he => absurd he hi)

/-- INIT either leaves the phase, or sets it and answers OK with zero fields (44_identity_init.md R204). -/
theorem exec_init_phase {s t : State} (h : exec .init s = .next t) :
    t.phase = s.phase ∨ (t.phase = .initialized ∧ t.responses = s.responses ++ [0x00000000]) := by
  injection h with h
  subst h
  have hfirst := memWrite_holds (P := fun u => u.phase = s.phase ∧ u.responses = s.responses) s.cfg.aSpiConfig
    s.cfg.spiConfigInit (s := s.accept .init) ⟨rfl, rfl⟩ (fun _ _ _ hu => hu) (fun _ _ _ hu => hu)
  refine Run.Ends.conclude
    (D := fun a u => a = (0, 0) ∧ u.phase = .initialized ∧ u.responses = s.responses)
    (K := fun u => u.phase = s.phase ∧ u.responses = s.responses)
    (P := fun u => u.phase = s.phase ∨ (u.phase = .initialized ∧ u.responses = s.responses ++ [0x00000000]))
    (hfirst.ends.bind fun _ s1 h1 => ?_) ?_ (fun _ _ ⟨hphase, _⟩ => .inl hphase) fun _ ⟨hphase, _⟩ => .inl hphase
  · exact (initRanges_holds allChannels h1 (fun _ _ _ hu => hu) (fun _ _ _ hu => hu)
      (fun _ _ _ hu => hu)).ends.bind fun _ s2 ⟨_, hresp⟩ => ⟨rfl, rfl, hresp⟩
  · rintro - u ⟨rfl, hphase, hresp⟩
    exact .inr ⟨hphase, congrArg (· ++ [0x00000000]) hresp⟩

/-- Settles O39: INIT is the only operation with the write, and makes it just before its OK response. -/
theorem onlyInitSetsThePhase : Obligations.OnlyInitSetsThePhase := by
  intro i s t h hne
  by_cases hi : i = .init
  · subst hi
    obtain ⟨hphase, hresp⟩ := (exec_init_phase h).resolve_left hne
    exact ⟨rfl, hphase, hresp⟩
  · exact absurd (exec_phase_of_ne_init hi h) hne

/-- A read transaction is the only part of an operation that latches a status byte (10_state.md R26). -/
theorem exec_lastStatus_of_readsDevice_false {i : Instr} {s t : State} (hi : i.readsDevice = false)
    (h : exec i s = .next t) : t.lastStatus = s.lastStatus ∧ t.lastStatusValid = s.lastStatusValid :=
  exec_holds (P := fun u => u.lastStatus = s.lastStatus ∧ u.lastStatusValid = s.lastStatusValid) h ⟨rfl, rfl⟩
    (fun _ _ _ hu => hu) (fun _ _ _ hu => hu) (fun _ _ hu => hu) (fun _ _ hu => hu) (fun _ hu => hu)
    (fun hr => by simp [hi] at hr) (fun _ _ _ _ hu => hu) (fun _ _ hu => hu)

/-- Latching a status byte sets the valid bit, and nothing else writes it (10_state.md R26, R29). -/
theorem exec_lastStatusValid {i : Instr} {s t : State} (h : exec i s = .next t) (hs : s.lastStatusValid = true) :
    t.lastStatusValid = true :=
  exec_holds (P := fun u => u.lastStatusValid = true) h hs (fun _ _ _ hu => hu) (fun _ _ _ hu => hu)
    (fun _ _ hu => hu) (fun _ _ hu => hu) (fun _ hu => hu) (fun _ _ _ _ => rfl) (fun _ _ _ _ hu => hu)
    (fun _ _ hu => hu)

/-- Settles O40: by what the latching of a status byte writes, and who has it. -/
theorem onlyReadsWriteTheLastStatus : Obligations.OnlyReadsWriteTheLastStatus :=
  fun _ _ _ h => ⟨fun hi => exec_lastStatus_of_readsDevice_false hi h, exec_lastStatusValid h⟩

end Sys2Proof.Machine
end

section
/-! Acceptance of a command word (spec/10_state.md R27, R28), and the state after reset (R43). -/

namespace Sys2Proof.Machine

/-- An idle block takes the word presented and runs the operation it decodes to (30_encoding.md R81). -/
theorem nextOf_of_decode {s : State} {w : Word} {rest : List Word} {i : Instr} (hr : s.rst = false)
    (hb : s.busy = false) (hh : s.host = w :: rest) (hd : decode .command w = some i) :
    nextOf s = .run i { s with host := rest } := by
  simp [nextOf, nextOfHost, hr, hb, hh, hd]

/-- Settles O29: the block's next operation is the one presented. -/
theorem stepRunsTheDecodedCommand : Obligations.StepRunsTheDecodedCommand := by
  intro s w rest i hr hb hh hd
  rw [step, nextOf_of_decode hr hb hh hd]

/-- Settles O34: each field of the reset state is R43's value by definition. -/
theorem resetStateHoldsItsValues : Obligations.ResetStateHoldsItsValues :=
  fun _ => ⟨rfl, rfl, rfl, rfl, rfl, rfl, rfl⟩

/-- Settles O44: the empty trace leaves the wire at rest, where the select line is high. -/
theorem framingHoldsAtReset : Obligations.FramingHoldsAtReset := by
  intro c
  refine ⟨⟨.rest, rfl, rfl, rfl⟩, ?_⟩
  simp [State.resetWith]

/-- Settles O48: nothing is on the wire and the sequencer is idle. -/
theorem allowedFramesHoldAtReset : Obligations.AllowedFramesHoldAtReset := by
  intro c
  constructor
  · intro tx r h
    simp [State.resetWith] at h
  · intro i n h
    cases h

/-- Settles O51: nothing is presented, nothing runs, and the cache is zero. -/
theorem rangeFieldIsHeldAtReset : Obligations.RangeFieldIsHeldAtReset := by
  intro c k
  refine ⟨⟨rfl, ?_, ?_⟩, State.rangeField_of_zero rfl k⟩
  · intro w h
    simp [State.resetWith] at h
  · intro i n h
    cases h

end Sys2Proof.Machine
end

section
/-! Where an operation leaves the sequencer: idle, or held within that very operation (spec/10_state.md R27,
60_exceptions.md R236). -/

namespace Sys2Proof.Machine

/-- The only operation that may be in progress is `i`. -/
def State.InOnly (i : Instr) (s : State) : Prop := ∀ j n, s.seq = .running j n → j = i

theorem State.InOnly.of_idle {i : Instr} {s : State} (h : s.seq = .idle) : s.InOnly i :=
  fun j n hj => by rw [h] at hj; cases hj

theorem State.accept_inOnly (i : Instr) (s : State) : (s.accept i).InOnly i :=
  fun j n hj => by cases hj; rfl

/-- Events advance the position and leave the operation. -/
theorem State.InOnly.of_advanceBy {i : Instr} {s t : State} {n : Nat} (h : s.InOnly i)
    (ht : t.seq = s.seq.advanceBy n) : t.InOnly i := by
  intro j m hj
  rw [ht] at hj
  cases hs : s.seq with
  | idle => rw [hs, Seq.advanceBy_idle] at hj; cases hj
  | running i' p =>
    rw [hs, Seq.advanceBy_running] at hj
    cases hj
    exact h _ _ hs

/-- A command that answers leaves the sequencer idle; one that is held stands at an event of its own. -/
theorem Run.Within.conclude_inOnly {A : Bytes3 → Prop} {m : Nat} {i : Instr} {s : State} {r : Run (Byte × Half)}
    (h : r.Within A m (s.accept i)) : r.conclude.InOnly i := by
  cases r with
  | done a t => exact .of_idle rfl
  | raised e t => exact .of_idle rfl
  | hung t =>
    obtain ⟨evs, l, -, -, ht⟩ := h
    exact (State.accept_inOnly i s).of_advanceBy ht.seq

/-- The same of the rows that are one frame transaction run by itself (log 7). -/
theorem frame_settled_inOnly (i : Instr) (tx : Bytes3) (s : State) : (frame tx (s.accept i)).settled.InOnly i :=
  (frame_holds tx (State.accept_inOnly i s) (fun _ _ _ hu => hu.of_advanceBy rfl)
    fun _ _ _ hu => hu.of_advanceBy rfl).settled fun _ _ => .of_idle rfl

theorem exec_inOnly {i : Instr} {s t : State} (h : exec i s = .next t) : t.InOnly i := by
  by_cases hi : i.isCommand = true
  case pos =>
    obtain ⟨r, hr, hw⟩ := exec_within i s hi
    cases hr.symm.trans h
    exact hw.conclude_inOnly
  case neg =>
    cases i <;> first | exact absurd rfl hi | cases h
    case writeFrame addr value => exact frame_settled_inOnly _ _ s
    case readRequestFrame addr => exact frame_settled_inOnly _ _ s
    case readDataFrameTx dummy => exact frame_settled_inOnly _ _ s
    case readDataFrameRx status value => exact .of_idle rfl
    case responseWord err aux data => exact .of_idle rfl

end Sys2Proof.Machine
end

section
/-! SET_RANGE and GET_RANGE on the range field of a channel: what each can do, said once (spec/41_range.md R141,
R143). -/

namespace Sys2Proof.Machine

/-- What the channel check accepts (30_encoding.md R90). -/
theorem channelOf_eq_some {a : Byte} {k : Fin 16} : channelOf a = some k ↔ a.toNat = k.val := by
  unfold channelOf
  split
  case isTrue h => simp [Fin.ext_iff]
  case isFalse h => simp; omega

theorem channelOf_ofNat (k : Fin 16) : channelOf (BitVec.ofNat 8 k.val) = some k :=
  channelOf_eq_some.mpr (by simp; omega)

theorem State.rangeField_of_rc {s t : State} (h : t.rc = s.rc) (k : Fin 16) : t.rangeField k = s.rangeField k := by
  rw [State.rangeField, State.rangeField, State.readRC, State.readRC, h]

/-- Only an OK response can be the zero word (30_encoding.md R82, 60_exceptions.md R220). -/
theorem responseOf_ne_zero {e : ErrorCode} (h : e ≠ .ok) : responseOf e 0 0 ≠ 0x00000000 := by
  cases e with
  | ok => exact absurd rfl h
  | transportError => decide
  | invalidChannel => decide
  | invalidFieldCode => decide
  | invalidAddress => decide
  | invalidOperation => decide

theorem State.raise_responses_ne {s u : State} {e : ErrorCode} (he : e ≠ .ok) (hu : u.responses = s.responses) :
    (u.raise e).responses ≠ s.responses ++ [0x00000000] := by
  rw [State.raise_responses, hu]
  simpa using responseOf_ne_zero he

/-- SET_RANGE's body either merges the code into a cache the write left alone, or ends at the write with neither the
cache nor the responses changed (41_range.md R141). -/
theorem storeRange_outcomes {valid : List (BitVec 4)} (ch : Fin 16) (code : RangeCode valid) (s : State) :
    (∃ u : State, u.rc = s.rc ∧ storeRange ch code s = .done () (u.mergeRange ch code.code)) ∨
      ∃ u : State, u.rc = s.rc ∧ u.responses = s.responses ∧
        (storeRange ch code s = .raised .transportError u ∨ storeRange ch code s = .hung u) := by
  unfold storeRange
  cases hr : s.reply (writeTx (rangeAddr s.cfg (rangeIndex ch))
      (rangeEncode (s.readRC (rangeIndex ch)) ch code.code)) with
  | none =>
    obtain ⟨evs, l, -, he⟩ := memWrite_held hr
    rw [he]
    exact .inr ⟨s.heldAt evs l, rfl, rfl, .inr rfl⟩
  | some r =>
    cases r with
    | ok rx => rw [memWrite_ok hr]; exact .inl ⟨s.afterFrame _ (.ok rx), rfl, rfl⟩
    | err => rw [memWrite_err hr]; exact .inr ⟨s.afterFrame _ .err, rfl, rfl, .inl rfl⟩

/-- The channel check of SET_RANGE comes first (41_range.md R141). -/
theorem execSetRange_of_channelOf_none {ch : Byte} (b : Half) (s : State) (hk : channelOf ch = none) :
    execSetRange ch b s = .next ((s.accept (.setRange ch b)).raise .invalidChannel) := by
  unfold execSetRange operate
  rw [hk]
  rfl

theorem execSetRange_of_rangeCodeOf_none {ch : Byte} {b : Half} {s : State} {k : Fin 16}
    (hk : channelOf ch = some k) (hc : rangeCodeOf s.cfg b = none) :
    execSetRange ch b s = .next ((s.accept (.setRange ch b)).raise .invalidFieldCode) := by
  unfold execSetRange operate
  rw [hk]
  change Host.Outcome.next ((require _ (rangeCodeOf s.cfg b) _).bind _).conclude = _
  rw [hc]
  rfl

/-- SET_RANGE merges the code it was given into its own channel's field and answers, or leaves the cache and gives no
OK response (41_range.md R141). -/
theorem exec_setRange_cases {ch : Byte} {b : Half} {s t : State} (h : exec (.setRange ch b) s = .next t) :
    (∃ (k : Fin 16) (code : BitVec 4) (u : State), channelOf ch = some k ∧ b = code.setWidth 16 ∧
        u.rc = s.rc ∧ t = (u.mergeRange k code).respond 0x00000000) ∨
      (t.rc = s.rc ∧ t.responses ≠ s.responses ++ [0x00000000]) := by
  change execSetRange ch b s = .next t at h
  cases hk : channelOf ch with
  | none =>
    cases (execSetRange_of_channelOf_none b s hk).symm.trans h
    exact .inr ⟨rfl, State.raise_responses_ne (by decide) rfl⟩
  | some k =>
    cases hc : rangeCodeOf s.cfg b with
    | none =>
      cases (execSetRange_of_rangeCodeOf_none hk hc).symm.trans h
      exact .inr ⟨rfl, State.raise_responses_ne (by decide) rfl⟩
    | some code =>
      cases (execSetRange_of_code hk hc).symm.trans h
      obtain ⟨u, hu, he⟩ | ⟨u, hu, hresp, he | he⟩ := storeRange_outcomes k code (s.accept (.setRange ch b))
      · rw [he]
        exact .inl ⟨k, code.code, u, rfl, rangeCodeOf_eq_some.mp hc, hu, rfl⟩
      · rw [he]
        exact .inr ⟨hu, State.raise_responses_ne (by decide) hresp⟩
      · rw [he]
        refine .inr ⟨hu, fun heq => ?_⟩
        simp [hresp] at heq

/-- A SET_RANGE that answered OK has stored its code in its channel's field. -/
theorem rangeField_of_exec_setRange_ok {b : Half} {s t : State} {k : Fin 16}
    (h : exec (.setRange (BitVec.ofNat 8 k.val) b) s = .next t) (hok : t.responses = s.responses ++ [0x00000000]) :
    (t.rangeField k).setWidth 16 = b := by
  obtain ⟨k', code, u, hk, rfl, -, rfl⟩ | ⟨-, hne⟩ := exec_setRange_cases h
  · cases (channelOf_ofNat k).symm.trans hk
    exact congrArg (BitVec.setWidth 16) (State.rangeField_mergeRange_self k code u)
  · exact absurd hok hne

/-- An OK response that carries data only (30_encoding.md R82). -/
theorem responseOf_ok (data : Half) : responseOf .ok 0 data = 0#16 ++ data := rfl

/-- A command that is answered with no frame changes nothing but the responses and the sequencer. -/
theorem State.respond_accept (i : Instr) (w : Word) (s : State) : (s.accept i).respond w = s.completed [] w := by
  simp [State.completed, framesEvents, State.useTurns, State.respond, State.settle, State.accept]

/-- GET_RANGE answers the channel's field, with no frame (41_range.md R143). -/
theorem exec_getRange_of_channelOf {ch : Byte} {k : Fin 16} (s : State) (hk : channelOf ch = some k) :
    exec (.getRange ch) s = .next (s.completed [] (0#16 ++ (s.rangeField k).setWidth 16)) := by
  change execGetRange ch s = _
  unfold execGetRange operate
  rw [hk]
  change Host.Outcome.next ((s.accept _).respond (responseOf .ok 0 ((s.rangeField k).setWidth 16))) = _
  rw [State.respond_accept, responseOf_ok]

/-- SET_RANGE of another channel, and every operation that is neither SET_RANGE nor INIT, leaves the field
(10_state.md R21, 41_range.md R141). -/
theorem exec_rangeField {k : Fin 16} {i : Instr} {s t : State} (hi : i.writesRangeOf k = false)
    (h : exec i s = .next t) : t.rangeField k = s.rangeField k := by
  by_cases hw : i.writesRanges = true
  case neg => exact State.rangeField_of_rc (onlySetRangeAndInitWriteTheCache i s t h (by simpa using hw)) k
  case pos =>
    obtain ⟨ch, b, rfl⟩ | rfl := writesRanges_iff.mp hw
    · obtain ⟨k', code, u, hk, -, hu, rfl⟩ | ⟨hrc, -⟩ := exec_setRange_cases h
      · have hne : k ≠ k' := by
          rintro rfl
          simp [Instr.writesRangeOf, channelOf_eq_some.mp hk] at hi
        calc (u.mergeRange k' code).rangeField k
          _ = u.rangeField k := State.rangeField_mergeRange_ne hne code u
          _ = s.rangeField k := State.rangeField_of_rc hu k
      · exact State.rangeField_of_rc hrc k
    · simp [Instr.writesRangeOf] at hi

end Sys2Proof.Machine
end

section
/-! Coherence of the range cache (spec/20_memory.md R67): a held range field survives every step, hence a session. -/

namespace Sys2Proof.Machine

/-- Block reset is taken only on the reset input (70_reset_and_hazards.md R260). -/
theorem rst_of_nextOf_reset {s : State} (h : nextOf s = .reset) : s.rst = true := by
  by_contra hr
  unfold nextOf at h
  rw [if_neg hr] at h
  split at h
  · unfold nextOfSeq at h
    split at h <;> cases h
  · unfold nextOfHost at h
    split at h
    · cases h
    · split at h <;> cases h

/-- With the presented word taken, what the host has still to present is as quiet as before. -/
theorem State.RangeHeld.host_tail {k : Fin 16} {code : RawRange} {s : State} {w : Word} {rest : List Word}
    (hs : s.RangeHeld k code) (hh : s.host = w :: rest) : ({ s with host := rest } : State).RangeHeld k code := by
  obtain ⟨⟨hrst, hhost, hseq⟩, hfield⟩ := hs
  exact ⟨⟨hrst, fun v hv => hhost v (hh ▸ List.mem_cons_of_mem w hv), hseq⟩, hfield⟩

/-- What a quiet block runs next does not write the field, and is taken with the field still held. -/
theorem State.RangeHeld.of_nextOf_run {k : Fin 16} {code : RawRange} {s s' : State} {i : Instr}
    (hs : s.RangeHeld k code) (h : nextOf s = .run i s') : i.writesRangeOf k = false ∧ s'.RangeHeld k code := by
  have ⟨⟨_, hhost, hseq⟩, _⟩ := hs
  obtain ⟨-, ⟨-, hrun, rfl⟩ | ⟨w, rest, -, hh, hd, rfl⟩⟩ := nextOf_run h
  · exact ⟨hseq i 0 hrun, hs⟩
  · exact ⟨hhost w (hh ▸ List.mem_cons_self) i hd, hs.host_tail hh⟩

/-- An operation that does not write the field leaves it held: it does not touch what the host presents, and if it is
held itself it is the operation in progress. -/
theorem exec_rangeHeld {k : Fin 16} {code : RawRange} {i : Instr} {s t : State} (hi : i.writesRangeOf k = false)
    (hs : s.RangeHeld k code) (h : exec i s = .next t) : t.RangeHeld k code := by
  obtain ⟨⟨hrst, hhost, -⟩, hfield⟩ := hs
  obtain ⟨-, hhost', hrst'⟩ := exec_sameOutside h
  refine ⟨⟨hrst'.trans hrst, hhost' ▸ hhost, fun j n hj => ?_⟩, (exec_rangeField hi h).trans hfield⟩
  rw [exec_inOnly h j n hj]
  exact hi

/-- Settles O50: by the four things a step can be, of which block reset is excluded. -/
theorem rangeFieldIsHeldByEveryStep : Obligations.RangeFieldIsHeldByEveryStep := by
  intro s t k code hs h
  obtain ⟨hn, -⟩ | ⟨-, rfl⟩ | ⟨i, s', hn, he⟩ | ⟨s', hn, rfl⟩ := step_cases h
  · obtain ⟨⟨hrst, -, -⟩, -⟩ := hs
    simp [rst_of_nextOf_reset hn] at hrst
  · exact hs
  · obtain ⟨hi, hs'⟩ := hs.of_nextOf_run hn
    exact exec_rangeHeld hi hs' he
  · obtain ⟨-, -, w, rest, hh, -, rfl⟩ := nextOf_invalid hn
    obtain ⟨⟨hrst, hhost, -⟩, hfield⟩ := hs.host_tail hh
    exact ⟨⟨hrst, hhost, fun j n hj => by cases hj⟩, hfield⟩

/-- A run that answers a next state began with a step that does. -/
theorem step_of_run_succ {M : Host.Core} {n : Nat} {s t : M.State} (h : M.run (n + 1) s = .next t) :
    ∃ s', M.step s = .next s' ∧ M.run n s' = .next t := by
  rw [Host.Core.run] at h
  cases hs : M.step s with
  | next s' => exact ⟨s', rfl, by rwa [hs] at h⟩
  | fault f => rw [hs] at h; cases h
  | refused r => rw [hs] at h; cases h

/-- What every step keeps, any number of steps keep. -/
theorem run_keeps {P : State → Prop} (hstep : ∀ s t, P s → step s = .next t → P t) (n : Nat) {s t : State} (hs : P s)
    (h : Host.Core.run Sys2Proof.core n s = .next t) : P t := by
  induction n generalizing s with
  | zero => cases h; exact hs
  | succ n ih =>
    obtain ⟨s', hs', hrun⟩ := step_of_run_succ h
    exact ih (hstep s s' hs hs') hrun

/-- Settles O49: the field holds the code when SET_RANGE answers OK, the steps of the session keep it, and GET_RANGE
answers it. -/
theorem cacheStaysCoherentOverASession : Obligations.CacheStaysCoherentOverASession := by
  intro n s t u k code hset hok hquiet hrun
  have hheld : u.RangeHeld k (t.rangeField k) :=
    run_keeps (fun s t => rangeFieldIsHeldByEveryStep s t k _) n ⟨hquiet, rfl⟩ hrun
  obtain ⟨-, hfield⟩ := hheld
  have hcode : (u.rangeField k).setWidth 16 = code :=
    (congrArg (BitVec.setWidth 16) hfield).trans (rangeField_of_exec_setRange_ok hset hok)
  rw [exec_getRange_of_channelOf u (channelOf_ofNat k), hcode]

end Sys2Proof.Machine
end

section
/-! The three fields of a command word: every word of the opcode table is put together from them and read through them
(spec/30_encoding.md R81, R82, R85 to R88). -/

namespace Sys2Proof

@[simp] theorem cmdOp_commandWord (op a : Byte) (b : Half) : cmdOp (commandWord op a b) = op :=
  (BitVec.extractLsb'_append_eq_of_le (by decide)).trans BitVec.extractLsb'_append_eq_left

@[simp] theorem cmdA_commandWord (op a : Byte) (b : Half) : cmdA (commandWord op a b) = a :=
  (BitVec.extractLsb'_append_eq_of_le (by decide)).trans BitVec.extractLsb'_append_eq_right

@[simp] theorem cmdB_commandWord (op a : Byte) (b : Half) : cmdB (commandWord op a b) = b :=
  BitVec.extractLsb'_append_eq_right

theorem commandWord_fields (w : Word) : commandWord (cmdOp w) (cmdA w) (cmdB w) = w := by
  have hhigh : cmdOp w ++ cmdA w = w.extractLsb' 16 16 :=
    BitVec.extractLsb'_append_extractLsb'_eq_extractLsb' rfl
  rw [commandWord, hhigh]
  exact BitVec.extractLsb'_append_extractLsb'

theorem eq_iff_fields {w v : Word} : w = v ↔ cmdOp w = cmdOp v ∧ cmdA w = cmdA v ∧ cmdB w = cmdB v := by
  refine ⟨by rintro rfl; exact ⟨rfl, rfl, rfl⟩, fun ⟨hop, ha, hb⟩ => ?_⟩
  rw [← commandWord_fields w, hop, ha, hb, commandWord_fields]

@[simp] theorem cmdOp_and (w v : Word) : cmdOp (w &&& v) = cmdOp w &&& cmdOp v := BitVec.extractLsb'_and

@[simp] theorem cmdA_and (w v : Word) : cmdA (w &&& v) = cmdA w &&& cmdA v := BitVec.extractLsb'_and

@[simp] theorem cmdB_and (w v : Word) : cmdB (w &&& v) = cmdB w &&& cmdB v := BitVec.extractLsb'_and

/-- Agreement on the bits of a command that ignores both operands. -/
theorem and_opMask {w : Word} {op a : Byte} {b : Half} :
    w &&& 0xFF000000#32 = commandWord op a b &&& 0xFF000000#32 ↔ cmdOp w = op := by
  have hmask : 0xFF000000#32 = commandWord (BitVec.allOnes 8) 0 0 := rfl
  rw [hmask, eq_iff_fields]
  simp [-BitVec.reduceAllOnes]

/-- Agreement on the bits of a command that ignores operand `b`. -/
theorem and_opAMask {w : Word} {op a : Byte} {b : Half} :
    w &&& 0xFFFF0000#32 = commandWord op a b &&& 0xFFFF0000#32 ↔ cmdOp w = op ∧ cmdA w = a := by
  have hmask : 0xFFFF0000#32 = commandWord (BitVec.allOnes 8) (BitVec.allOnes 8) 0 := rfl
  rw [hmask, eq_iff_fields]
  simp [-BitVec.reduceAllOnes]

/-- Agreement on every bit. -/
theorem and_fullMask {w : Word} {op a : Byte} {b : Half} :
    w &&& 0xFFFFFFFF#32 = commandWord op a b &&& 0xFFFFFFFF#32 ↔ cmdOp w = op ∧ cmdA w = a ∧ cmdB w = b := by
  have hmask : 0xFFFFFFFF#32 = commandWord (BitVec.allOnes 8) (BitVec.allOnes 8) (BitVec.allOnes 16) := rfl
  rw [hmask, eq_iff_fields]
  simp [-BitVec.reduceAllOnes]

end Sys2Proof
end

section
/-! The command decoder reads exactly the table of R81 (spec/30_encoding.md R81, R99). -/

namespace Sys2Proof

/-- What the row of an operation in R81's table asks of the fields of a command word; the rows that are no host commands
are not in that table. -/
def Instr.Row (op a : Byte) (b : Half) : Instr → Prop
  | .writeReg addr value => op = 0x01 ∧ a = addr ∧ b = value
  | .readReg addr => op = 0x02 ∧ a = addr
  | .setRange ch code => op = 0x10 ∧ a = ch ∧ b = code
  | .getRange ch => op = 0x11 ∧ a = ch
  | .setPower ch enabled => op = 0x12 ∧ a = ch ∧ b = enabled
  | .setSync ch mode => op = 0x13 ∧ a = ch ∧ b = mode
  | .setToggleMode ch mode => op = 0x14 ∧ a = ch ∧ b = mode
  | .setOutput ch value => op = 0x15 ∧ a = ch ∧ b = value
  | .setBcastEn ch included => op = 0x16 ∧ a = ch ∧ b = included
  | .triggerLdac => op = 0x20 ∧ a = 0x00
  | .triggerAlarmReset => op = 0x20 ∧ a = 0x01
  | .triggerDefaultsReset => op = 0x20 ∧ a = 0x02
  | .triggerToggle sel => op = 0x20 ∧ a = 0x03 ∧ b = sel
  | .deviceIdentity => op = 0x30
  | .isResponding => op = 0x31
  | .init => op = 0x40
  | .getLastStatus => op = 0x50
  | .writeFrame _ _ => False
  | .readRequestFrame _ => False
  | .readDataFrameTx _ => False
  | .readDataFrameRx _ _ => False
  | .responseWord _ _ _ => False

/-- The row is what the operation's own word says on the bits it reads. -/
theorem row_iff_and_usedBits (w : Word) (i : Instr) :
    i.Row (cmdOp w) (cmdA w) (cmdB w) ↔ i.isCommand = true ∧ w &&& i.usedBits = encode i &&& i.usedBits := by
  cases i <;>
    simp [Instr.Row, Instr.isCommand, Instr.layout, Instr.usedBits, encode, and_opMask, and_opAMask, and_fullMask]

theorem decodeTrigger_row {a : Byte} {b : Half} {i : Instr} (h : decodeTrigger a b = some i) : i.Row 0x20 a b := by
  unfold decodeTrigger at h
  split at h
  case h_5 => cases h
  all_goals
    rename_i ha
    cases h
    simpa [Instr.Row] using BitVec.eq_of_toNat_eq ha

theorem decodeCommand_row {w : Word} {i : Instr} (h : decodeCommand w = some i) :
    i.Row (cmdOp w) (cmdA w) (cmdB w) := by
  unfold decodeCommand at h
  split at h
  case h_10 hop => rw [show cmdOp w = 0x20 from BitVec.eq_of_toNat_eq hop]; exact decodeTrigger_row h
  case h_15 => cases h
  all_goals
    rename_i hop
    cases h
    simpa [Instr.Row] using BitVec.eq_of_toNat_eq hop

theorem decodeCommand_of_row {w : Word} {i : Instr} (h : i.Row (cmdOp w) (cmdA w) (cmdB w)) :
    decodeCommand w = some i := by
  cases i <;> simp [Instr.Row] at h <;> simp [decodeCommand, decodeTrigger, h]

theorem decodeCommand_eq_some {w : Word} {i : Instr} :
    decodeCommand w = some i ↔ i.Row (cmdOp w) (cmdA w) (cmdB w) := ⟨decodeCommand_row, decodeCommand_of_row⟩

/-- The four trigger kinds of R81. -/
theorem decodeTrigger_ne_none {a : Byte} {b : Half} : decodeTrigger a b ≠ none ↔ a.toNat ≤ 3 := by
  unfold decodeTrigger
  split
  case h_5 h0 h1 h2 h3 =>
    have hne : a.toNat ≠ 0 ∧ a.toNat ≠ 1 ∧ a.toNat ≠ 2 ∧ a.toNat ≠ 3 := ⟨h0, h1, h2, h3⟩
    exact iff_of_false (not_not.mpr rfl) (by omega)
  all_goals simp [*]

/-- The decoder's domain: an opcode of R81's table, and for 0x20 one of its four trigger kinds (30_encoding.md R99). -/
theorem decodeCommand_ne_none {w : Word} :
    decodeCommand w ≠ none ↔ cmdOp w ∈ listedOps ∨ (cmdOp w = 0x20 ∧ (cmdA w).toNat ≤ 3) := by
  constructor
  case mp =>
    intro h
    obtain ⟨i, hi⟩ := Option.ne_none_iff_exists'.mp h
    have hrow := decodeCommand_row hi
    cases i <;> simp_all [Instr.Row, listedOps]
  case mpr =>
    rintro (hop | ⟨hop, ha⟩)
    · have hall : ∀ op ∈ listedOps, cmdOp w = op → decodeCommand w ≠ none := by
        simp +contextual [listedOps, decodeCommand]
      exact hall _ hop rfl
    · have htrigger : decodeCommand w = decodeTrigger (cmdA w) (cmdB w) := by simp [decodeCommand, hop]
      rw [htrigger]
      exact decodeTrigger_ne_none.mpr ha

theorem unlisted_eq_false {w : Word} :
    unlisted w = false ↔ cmdOp w ∈ listedOps ∨ (cmdOp w = 0x20 ∧ (cmdA w).toNat ≤ 3) := by
  change (!listedOps.contains (cmdOp w) && !(cmdOp w == 0x20#8 && decide ((cmdA w).toNat ≤ 3))) = false ↔ _
  simp only [Bool.and_eq_false_iff, Bool.not_eq_false', List.contains_iff_mem, Bool.and_eq_true, beq_iff_eq,
    decide_eq_true_eq]
  rfl

/-- Settles O2: both sides are the operation's row of R81's table. -/
theorem commandWordsAreReadByTheirUsedBits : Obligations.CommandWordsAreReadByTheirUsedBits :=
  fun w i => decodeCommand_eq_some.trans (row_iff_and_usedBits w i)

/-- Settles O3: the words the decoder takes are those that are not unlisted. -/
theorem unlistedWordsMatchNoOperation : Obligations.UnlistedWordsMatchNoOperation := by
  intro w
  have h : ¬ decodeCommand w = none ↔ ¬ unlisted w = true := by
    rw [Bool.not_eq_true]
    exact decodeCommand_ne_none.trans unlisted_eq_false.symm
  exact not_iff_not.mp h

end Sys2Proof
end

section
/-! The frames and the response word as they are encoded, and their decoders (spec/30_encoding.md R82, R85 to R88). -/

namespace Sys2Proof

/-- A field of a word that is put together from two parts is read part by part. -/
theorem parts_of_extractLsb' {k m n start : Nat} {w : BitVec k} (x : BitVec m) (y : BitVec n)
    (h : w.extractLsb' start (m + n) = x ++ y) : w.extractLsb' (start + n) m = x ∧ w.extractLsb' start n = y := by
  have part : ∀ off len : Nat, off + len ≤ m + n →
      (x ++ y).extractLsb' off len = w.extractLsb' (start + off) len := by
    intro off len hle
    rw [← h]
    apply BitVec.eq_of_getLsbD_eq
    intro j hj
    have hin : off + j < m + n := by omega
    simp [hj, hin, Nat.add_assoc]
  exact ⟨(part n m (by omega)).symm.trans BitVec.extractLsb'_append_eq_left,
    (part 0 n (by omega)).symm.trans BitVec.extractLsb'_append_eq_right⟩

/-! ### A 24-bit frame is a word with a zero opcode -/

theorem encode_writeFrame (addr : BitVec 6) (v : Half) :
    encode (.writeFrame addr v) = commandWord 0 (0b00#2 ++ addr) v :=
  congrArg (· ++ v) (BitVec.append_assoc' (x₁ := 0#8)).symm

theorem encode_readRequestFrame (addr : BitVec 6) :
    encode (.readRequestFrame addr) = commandWord 0 (0b11#2 ++ addr) 0 :=
  congrArg (· ++ 0#16) (BitVec.append_assoc' (x₁ := 0#8)).symm

theorem encode_readDataFrameTx (d : Byte) : encode (.readDataFrameTx d) = commandWord 0 d (d ++ d) :=
  (BitVec.append_assoc' (x₁ := 0#8 ++ d)).symm

theorem encode_readDataFrameRx (status : Byte) (value : Half) :
    encode (.readDataFrameRx status value) = commandWord 0 status value := rfl

theorem encode_responseWord (err : BitVec 4) (aux : Byte) (data : Half) :
    encode (.responseWord err aux data) = commandWord (err ++ 0#4) aux data := rfl

/-! ### The decoders of the other layouts, on words put together from their fields -/

@[simp] theorem fits24_commandWord (a : Byte) (b : Half) : fits24 (commandWord 0 a b) = true :=
  beq_iff_eq.mpr (cmdOp_commandWord 0 a b)

/-- The first byte of a transmitted frame is its kind, then the address (R85, R86). -/
theorem frameFields_commandWord (kind : BitVec 2) (addr : BitVec 6) (b : Half) :
    (commandWord 0 (kind ++ addr) b).extractLsb' 22 2 = kind ∧
      (commandWord 0 (kind ++ addr) b).extractLsb' 16 6 = addr :=
  parts_of_extractLsb' (start := 16) kind addr (cmdA_commandWord 0 (kind ++ addr) b)

theorem decodeTxFrame_writeFrame (addr : BitVec 6) (v : Half) :
    decodeTxFrame (encode (.writeFrame addr v)) = some (.writeFrame addr v) := by
  obtain ⟨hkind, haddr⟩ := frameFields_commandWord 0b00#2 addr v
  rw [encode_writeFrame, decodeTxFrame, if_pos (fits24_commandWord _ _), hkind, haddr, cmdB_commandWord]
  rfl

theorem decodeTxFrame_readRequestFrame (addr : BitVec 6) :
    decodeTxFrame (encode (.readRequestFrame addr)) = some (.readRequestFrame addr) := by
  obtain ⟨hkind, haddr⟩ := frameFields_commandWord 0b11#2 addr 0
  rw [encode_readRequestFrame, decodeTxFrame, if_pos (fits24_commandWord _ _), hkind, haddr, cmdB_commandWord]
  rfl

theorem decodeDataTx_readDataFrameTx (d : Byte) :
    decodeDataTx (encode (.readDataFrameTx d)) = some (.readDataFrameTx d) := by
  obtain ⟨hsecond, hthird⟩ := parts_of_extractLsb' (start := 0) d d (cmdB_commandWord 0 d (d ++ d))
  rw [encode_readDataFrameTx, decodeDataTx, cmdA_commandWord, if_pos ⟨fits24_commandWord _ _, hsecond, hthird⟩]

theorem decodeDataRx_readDataFrameRx (status : Byte) (value : Half) :
    decodeDataRx (encode (.readDataFrameRx status value)) = some (.readDataFrameRx status value) := by
  rw [encode_readDataFrameRx, decodeDataRx, if_pos (fits24_commandWord _ _), cmdA_commandWord, cmdB_commandWord]

/-- A response word is read back when its fields are as R82 allows. -/
theorem decodeResponse_responseWord {err : BitVec 4} {aux : Byte} {data : Half}
    (hwf : (Instr.responseWord err aux data).wf = true) :
    decodeResponse (encode (.responseWord err aux data)) = some (.responseWord err aux data) := by
  obtain ⟨herr : BitVec.extractLsb' 28 4 _ = err, hzero⟩ :=
    parts_of_extractLsb' (start := 24) err (0 : BitVec 4) (cmdOp_commandWord (err ++ 0#4) aux data)
  rw [encode_responseWord, decodeResponse, if_pos hzero, herr, cmdA_commandWord, cmdB_commandWord, if_pos hwf]

/-- Settles O1: a host command's word agrees with itself on the bits the command reads, so O2 decodes it; each other row
by its own decoder. -/
theorem decodeInvertsEncode : Obligations.DecodeInvertsEncode := by
  intro i hwf
  by_cases hi : i.isCommand = true
  case pos =>
    have hlayout : i.layout = .command := beq_iff_eq.mp hi
    rw [hlayout]
    exact (commandWordsAreReadByTheirUsedBits _ i).mpr ⟨hi, rfl⟩
  case neg =>
    cases i <;> try exact absurd rfl hi
    case writeFrame addr value => exact decodeTxFrame_writeFrame addr value
    case readRequestFrame addr => exact decodeTxFrame_readRequestFrame addr
    case readDataFrameTx d => exact decodeDataTx_readDataFrameTx d
    case readDataFrameRx status value => exact decodeDataRx_readDataFrameRx status value
    case responseWord err aux data => exact decodeResponse_responseWord hwf

/-- Whatever a layout's decoder reads is an operation written in that layout. -/
theorem layout_of_decode {l : Layout} {w : Word} {i : Instr} (h : decode l w = some i) : i.layout = l := by
  cases l with
  | command => exact beq_iff_eq.mp (Machine.isCommand_of_decode h)
  | txFrame =>
    simp only [decode, decodeTxFrame] at h
    split at h
    case isFalse => cases h
    case isTrue =>
      split at h
      · cases h; rfl
      · split at h <;> cases h; rfl
      · cases h
  | dataTx => simp only [decode, decodeDataTx] at h; split at h <;> cases h; rfl
  | dataRx => simp only [decode, decodeDataRx] at h; split at h <;> cases h; rfl
  | response =>
    simp only [decode, decodeResponse] at h
    split at h
    case isFalse => cases h
    case isTrue => split at h <;> cases h; rfl

end Sys2Proof
end

section
/-! The bytes of a frame transaction are the frame layouts of the opcode table (spec/30_encoding.md R85 to R88). -/

namespace Sys2Proof.Machine

/-- A frame's 24 bits are its three bytes in order, the second and third of which are a 16-bit value (R83). -/
theorem setWidth_commandWord_zero (b0 b1 b2 : Byte) :
    (commandWord 0 b0 (b1 ++ b2)).setWidth 24 = b0 ++ b1 ++ b2 :=
  calc (commandWord 0 b0 (b1 ++ b2)).setWidth 24
    _ = (0#8 ++ (b0 ++ (b1 ++ b2))).setWidth 24 :=
      congrArg (BitVec.setWidth 24) (BitVec.append_assoc (x₁ := 0#8) (x₂ := b0) (x₃ := b1 ++ b2))
    _ = b0 ++ (b1 ++ b2) := BitVec.setWidth_append_eq_right
    _ = b0 ++ b1 ++ b2 := BitVec.append_assoc' (x₁ := b0)

theorem highByte_append_lowByte (v : Half) : highByte v ++ lowByte v = v := BitVec.extractLsb'_append_extractLsb'

/-- A 6-bit address as a byte: the two kind bits of a write frame (R85). -/
theorem setWidth_addr (a : BitVec 6) : a.setWidth 8 = 0b00#2 ++ a := BitVec.setWidth_eq_append (by decide)

/-- `READ_MASK` sets the two kind bits of a read-request frame (R86). -/
theorem setWidth_addr_or_readMask (a : BitVec 6) : a.setWidth 8 ||| readMask = 0b11#2 ++ a := by
  have hmask : readMask = 0b11#2 ++ 0#6 := rfl
  rw [setWidth_addr, hmask]
  refine BitVec.or_append.trans ?_
  simp

/-- The value of a read response is its second byte, then its third (R88). -/
theorem rxValue_eq_append (rx : Bytes3) : rxValue rx = rx.b1 ++ rx.b2 :=
  ((BitVec.setWidth_eq (rx.b1 ++ rx.b2)).symm.trans BitVec.setWidth_append_eq_shiftLeft_setWidth_or).symm

/-- Settles O5: each layout as a zero byte and the transport's three bytes. -/
theorem transportBytesAreTheFrameLayouts : Obligations.TransportBytesAreTheFrameLayouts := by
  refine ⟨fun a v => ?_, fun a => ?_, fun d => ?_, fun rx => ?_⟩
  · have hbytes := setWidth_commandWord_zero (a.setWidth 8) (highByte v) (lowByte v)
    rw [highByte_append_lowByte, setWidth_addr, ← encode_writeFrame] at hbytes
    rw [hbytes, ← setWidth_addr]
    rfl
  · rw [encode_readRequestFrame, ← setWidth_addr_or_readMask]
    exact (setWidth_commandWord_zero _ 0 0).symm
  · rw [encode_readDataFrameTx, setWidth_commandWord_zero]
    rfl
  · rw [encode_readDataFrameRx, rxValue_eq_append, setWidth_commandWord_zero]

end Sys2Proof.Machine
end

section
/-! The packed register fields bit by bit: the channel's range field, its mask bit, its toggle field (spec/30_encoding.md
R92 to R94). -/

namespace Sys2Proof.Machine

/-! ### Range fields (R92) -/

/-- Decoding reads the channel's four bits. -/
theorem rangeDecode_eq_extractLsb' (w : Half) (ch : Fin 16) : rangeDecode w ch = w.extractLsb' (rangeShift ch) 4 :=
  BitVec.setWidth_ushiftRight_eq_extractLsb

/-- Settles O6: the bits of mask and merge at the channel's shift, and the two laws. -/
theorem rangeFieldsPackFourToAWord : Obligations.RangeFieldsPackFourToAWord := by
  refine ⟨fun ch => ⟨rfl, rfl⟩, getLsbD_rangeMask, getLsbD_rangeEncode, rangeDecode_eq_extractLsb',
    rangeDecode_rangeEncode_self, fun w ch ch2 code hword hne => ?_⟩
  exact rangeDecode_rangeEncode_ne (Fin.ext hword) hne w code

/-! ### Mask bits (R93) -/

/-- One bit at place `n`, the shape of every mask of R93 and R94. -/
theorem getLsbD_one_shiftLeft {n : Nat} (hn : n < 16) (k : Nat) : (1#16 <<< n).getLsbD k = decide (k = n) := by
  rw [← BitVec.twoPow_eq, BitVec.getLsbD_twoPow, decide_eq_true hn, Bool.true_and]
  exact decide_eq_decide.mpr eq_comm

theorem getLsbD_bitMask (ch : Fin 16) (k : Nat) : (bitMask ch).getLsbD k = decide (k = ch.val) :=
  getLsbD_one_shiftLeft ch.isLt k

theorem getLsbD_bitSet (v : Half) (ch : Fin 16) (k : Nat) :
    (bitSet v ch).getLsbD k = if k = ch.val then true else v.getLsbD k := by
  rw [bitSet, BitVec.getLsbD_or, getLsbD_bitMask]
  split <;> simp [*]

/-- Clearing with a mask: the mask's bits go, the others stay. -/
theorem getLsbD_and_not (v m : Half) (k : Nat) : (v &&& ~~~m).getLsbD k = (v.getLsbD k && !m.getLsbD k) := by
  by_cases hk : k < 16
  · simp [hk]
  · simp [BitVec.getLsbD_of_ge v k (by omega)]

theorem getLsbD_bitClear (v : Half) (ch : Fin 16) (k : Nat) :
    (bitClear v ch).getLsbD k = if k = ch.val then false else v.getLsbD k := by
  rw [bitClear, getLsbD_and_not, getLsbD_bitMask]
  split <;> simp [*]

/-- Settles O7: by the one bit of the mask. -/
theorem maskFunctionsChangeTheChannelsBit : Obligations.MaskFunctionsChangeTheChannelsBit :=
  fun v ch k => ⟨getLsbD_bitMask ch k, getLsbD_bitSet v ch k, getLsbD_bitClear v ch k⟩

/-! ### Toggle fields (R94) -/

/-- The masks of `toggle_apply`: the low bit of the field, its high bit, and both. -/
theorem getLsbD_toggleMasks (ch : Fin 16) (k : Nat) :
    (0x0001#16 <<< toggleOffset ch).getLsbD k = decide (k = toggleOffset ch) ∧
    (0x0002#16 <<< toggleOffset ch).getLsbD k = decide (k = toggleOffset ch + 1) ∧
    (0x0003#16 <<< toggleOffset ch).getLsbD k = decide (k = toggleOffset ch ∨ k = toggleOffset ch + 1) := by
  have hoff : toggleOffset ch + 1 < 16 := by unfold toggleOffset; omega
  have hlow := getLsbD_one_shiftLeft (n := toggleOffset ch) (by omega) k
  have hhigh := getLsbD_one_shiftLeft hoff k
  have htwo : 0x0002#16 <<< toggleOffset ch = 1#16 <<< (toggleOffset ch + 1) := by
    rw [Nat.add_comm, BitVec.shiftLeft_add]
    rfl
  have hthree : 0x0003#16 = 0x0001#16 ||| 0x0002#16 := rfl
  refine ⟨hlow, htwo ▸ hhigh, ?_⟩
  rw [hthree, BitVec.shiftLeft_or_distrib, BitVec.getLsbD_or, htwo, hlow, hhigh, Bool.decide_or]

/-- The code of a toggle mode (R94; decision D12). -/
def ToggleMode.code : ToggleMode → Half
  | .clearBoth => 0
  | .lowOnly => 1
  | .highOnly => 2
  | .setBoth => 3

theorem code_of_toggleModeOf {b : Half} {m : ToggleMode} (h : toggleModeOf b = some m) : b = m.code := by
  unfold toggleModeOf at h
  split at h <;> cases h
  all_goals exact BitVec.eq_of_toNat_eq (by assumption)

/-- Every mode assigns its code's two bits to the channel's field. -/
theorem getLsbD_toggleApply (v : Half) (ch : Fin 16) (m : ToggleMode) (k : Nat) :
    (toggleApply v ch m).getLsbD k =
      if k = toggleOffset ch then m.code.getLsbD 0
      else if k = toggleOffset ch + 1 then m.code.getLsbD 1
      else v.getLsbD k := by
  obtain ⟨hlow, hhigh, hboth⟩ := getLsbD_toggleMasks ch k
  cases m <;> simp only [toggleApply, ToggleMode.code, getLsbD_and_not, BitVec.getLsbD_or, hlow, hhigh, hboth]
  all_goals
    split
    · simp [*]
    · split <;> simp [*]

/-- Settles O8: by the masks of each mode. -/
theorem toggleModeAssignsItsField : Obligations.ToggleModeAssignsItsField := by
  intro v ch b m hm k
  rw [code_of_toggleModeOf hm]
  exact getLsbD_toggleApply v ch m k

end Sys2Proof.Machine
end

section
/-! How the block takes a word of the opcode table, and a word of none (spec/30_encoding.md R80, R99). -/

namespace Sys2Proof.Machine

/-- Settles O30: a host command's word is taken from the port, any other row from the sequencer. -/
theorem stepRunsThePlacedTableWord : Obligations.StepRunsThePlacedTableWord := by
  intro s nbits w i h
  unfold decodeTableWord at h
  split at h
  case isFalse => cases h
  case isTrue =>
    unfold State.withFetchWord placeWord
    simp only [h]
    constructor
    · intro hi
      have hlayout := (layout_of_decode h).symm.trans (beq_iff_eq.mp hi)
      rw [hlayout] at h
      rw [if_pos hi]
      exact stepRunsTheDecodedCommand _ _ s.host i rfl rfl rfl h
    · intro hi
      rw [hi]
      rfl

/-- An idle block takes the word presented and refuses one that matches no operation (30_encoding.md R99). -/
theorem nextOf_of_decode_none {s : State} {w : Word} {rest : List Word} (hr : s.rst = false) (hb : s.busy = false)
    (hh : s.host = w :: rest) (hd : decode .command w = none) : nextOf s = .invalid { s with host := rest } := by
  simp [nextOf, nextOfHost, hr, hb, hh, hd]

/-- Settles O31: the decoder refuses the word (O3), and the refusal only gives its response. -/
theorem unlistedWordsAnswerInvalidOperation : Obligations.UnlistedWordsAnswerInvalidOperation := by
  intro s w rest hr hb hh hw
  rw [step, nextOf_of_decode_none hr hb hh ((unlistedWordsMatchNoOperation w).mpr hw)]
  rfl

end Sys2Proof.Machine
end

section
/-! Only the frames of R100 reach the wire (spec/30_encoding.md R100). -/

namespace Sys2Proof.Machine

/-- A run that performed only transport events leaves the wire trace longer by exchanges it may send, whatever way it
ends: concluding it adds no event. -/
theorem Run.Within.conclude_trace {A : Bytes3 → Prop} {m : Nat} {s : State} {r : Run (Byte × Half)}
    (h : r.Within A m s) :
    ∃ evs, r.conclude.trace = s.trace ++ evs ∧ ∀ tx a, Event.xfer tx a ∈ evs → A tx := by
  cases r with
  | done a t => obtain ⟨evs, -, ht⟩ := h; exact ⟨evs, ht.trace, ht.sent⟩
  | raised e t => obtain ⟨evs, ht⟩ := h; exact ⟨evs, ht.trace, ht.sent⟩
  | hung t => obtain ⟨evs, l, -, -, ht⟩ := h; exact ⟨evs, ht.trace, ht.sent⟩

/-- A host command adds only frames of R100's kinds (30_encoding.md), and what is in progress after it is itself. -/
theorem exec_wireAllowed {i : Instr} {s t : State} (hi : i.isCommand = true) (hs : s.WireAllowed)
    (h : exec i s = .next t) : t.WireAllowed := by
  obtain ⟨hsent, -⟩ := hs
  obtain ⟨hcfg, -, -⟩ := exec_sameOutside h
  refine ⟨fun tx a hm => ?_, fun j n hj => exec_inOnly h j n hj ▸ hi⟩
  obtain ⟨r, hr, hw⟩ := exec_within i s hi
  cases hr.symm.trans h
  obtain ⟨evs, htrace, hnew⟩ := hw.conclude_trace
  rw [htrace] at hm
  rw [hcfg]
  exact (List.mem_append.mp hm).elim (hsent tx a) (hnew tx a)

/-- What runs next is a host command: the sequencer is in nothing else, and the host port decodes to nothing else
(40_framer.md R120). -/
theorem State.WireAllowed.of_nextOf_run {s s' : State} {i : Instr} (hs : s.WireAllowed) (h : nextOf s = .run i s') :
    i.isCommand = true ∧ s'.WireAllowed := by
  have ⟨_, hseq⟩ := hs
  obtain ⟨-, ⟨-, hrun, rfl⟩ | ⟨w, rest, -, -, hd, rfl⟩⟩ := nextOf_run h
  · exact ⟨hseq i 0 hrun, hs⟩
  · exact ⟨isCommand_of_decode hd, hs⟩

/-- Settles O47: by the four things a step can be. -/
theorem onlyAllowedFramesReachTheWire : Obligations.OnlyAllowedFramesReachTheWire := by
  intro s t hs h
  obtain ⟨-, rfl⟩ | ⟨-, rfl⟩ | ⟨i, s', hn, he⟩ | ⟨s', hn, rfl⟩ := step_cases h
  · exact allowedFramesHoldAtReset s.cfg
  · exact hs
  · obtain ⟨hi, hs'⟩ := hs.of_nextOf_run hn
    exact exec_wireAllowed hi hs' he
  · obtain ⟨-, -, w, rest, -, -, rfl⟩ := nextOf_invalid hn
    obtain ⟨hsent, -⟩ := hs
    exact ⟨hsent, fun i n hi => by cases hi⟩

end Sys2Proof.Machine
end

section
/-! A host command answers exactly once or is held (spec/30_encoding.md R82, 10_state.md R27, R28, 60_exceptions.md
R236). -/

namespace Sys2Proof.Machine

/-- Complete frame transactions leave the select line high, and no frame leaves it alone (10_state.md R25). -/
theorem Transports.csN_of_rest {A : Bytes3 → Prop} {m : Nat} {evs : List Event} {s t : State}
    (h : Transports A m .rest evs s t) : t.csN = s.csN ∨ t.csN = true := by
  rw [h.level]
  by_cases he : evs = []
  · exact .inl (if_pos he)
  · exact .inr (if_neg he)

/-- A response after complete frame transactions is the only one, and ends the command (10_state.md R27). -/
theorem Transports.respond_answers {A : Bytes3 → Prop} {m : Nat} {evs : List Event} {i : Instr} {s u : State}
    (h : Transports A m .rest evs (s.accept i) u) (w : Word) :
    (∃ w', (u.respond w).responses = s.responses ++ [w']) ∧ (u.respond w).seq = .idle ∧
      (u.respond w).busy = false ∧ ((u.respond w).csN = s.csN ∨ (u.respond w).csN = true) :=
  ⟨⟨w, congrArg (· ++ [w]) h.responses⟩, rfl, rfl, h.csN_of_rest⟩

/-- A command that is held after some events stands at the event after them (10_state.md R27, 60_exceptions.md R236). -/
theorem Transports.held_position {A : Bytes3 → Prop} {m : Nat} {l : Line} {evs : List Event} {i : Instr} {s u : State}
    (h : Transports A m l evs (s.accept i) u) (hne : evs ≠ []) :
    ∃ n, u.seq = .running i (n + 1) ∧ u.trace.length = s.trace.length + (n + 1) ∧ s.trace <+: u.trace := by
  obtain ⟨n, hn⟩ : ∃ n, evs.length = n + 1 := Nat.exists_eq_succ_of_ne_zero (mt List.length_eq_zero_iff.mp hne)
  have htrace : u.trace = s.trace ++ evs := h.trace
  refine ⟨n, ?_, ?_, ⟨evs, htrace.symm⟩⟩
  · rw [h.seq, State.accept_seq, Seq.advanceBy_running, Nat.zero_add, hn]
  · rw [htrace, List.length_append, hn]

/-- Settles O36: by how the command's run ends. -/
theorem commandsAnswerOnceOrAreHeld : Obligations.CommandsAnswerOnceOrAreHeld := by
  intro i s t hi h
  obtain ⟨r, hr, hw⟩ := exec_within i s hi
  cases hr.symm.trans h
  cases r with
  | done a u =>
    obtain ⟨evs, -, hu⟩ := hw
    exact .inl (hu.respond_answers _)
  | raised e u =>
    obtain ⟨evs, hu⟩ := hw
    exact .inl (hu.respond_answers _)
  | hung u =>
    obtain ⟨evs, l, -, hne, hu⟩ := hw
    exact .inr ⟨hu.responses, hu.busy, hu.held_position hne⟩

end Sys2Proof.Machine
end

section
/-! The framing of the wire and of the handshake (spec/40_framer.md R126, 10_state.md R25, R28): an operation begins
between frame transactions, and its transport events leave the wire where the sequencer says it is. -/

namespace Sys2Proof.Machine

/-- The wire trace leaves the wire at `l`, and `cs_n` is the level there (40_framer.md R126, 10_state.md R25). -/
def State.OnLine (l : Line) (s : State) : Prop := Line.after s.cfg .rest s.trace = some l ∧ s.csN = l.level

/-- A piece of an operation that begins between frame transactions leaves the wire where its own events do. -/
theorem Transports.onLine {A : Bytes3 → Prop} {n : Nat} {l : Line} {evs : List Event} {s t : State}
    (h : Transports A n l evs s t) (hs : s.OnLine .rest) : t.OnLine l := by
  obtain ⟨hafter, hlevel⟩ := hs
  constructor
  · rw [h.cfg, h.trace, Line.after_append, hafter]
    exact h.line
  · by_cases he : evs = []
    · subst he
      cases h.line
      rw [h.level, if_pos rfl, hlevel]
    · rw [h.level, if_neg he]

/-- Between frame transactions an idle block is framed. -/
theorem State.OnLine.framed_of_idle {s : State} (hs : s.OnLine .rest) (hseq : s.seq = .idle) (hbusy : s.busy = false) :
    s.Framed := by
  obtain ⟨hafter, hlevel⟩ := hs
  refine ⟨⟨.rest, hafter, hlevel, by rw [hseq]; rfl⟩, ?_⟩
  simp [hseq, hbusy]

/-- An operation held after some events is framed: it stands past its first event, and the wire at a wait or an exchange
(60_exceptions.md R236). -/
theorem Transports.framed_of_held {A : Bytes3 → Prop} {m : Nat} {l : Line} {evs : List Event} {i : Instr}
    {s t : State} (h : Transports A m l evs (s.accept i) t) (hs : s.OnLine .rest) (hl : l.holds = true)
    (hne : evs ≠ []) : t.Framed := by
  obtain ⟨hafter, hlevel⟩ := h.onLine hs
  obtain ⟨n, hseq, -⟩ := h.held_position hne
  have hbusy : t.busy = true := h.busy
  refine ⟨⟨l, hafter, hlevel, by rw [hseq]; exact hl⟩, ?_⟩
  simp [hseq, hbusy]

/-- However a host command ends, the block is framed: a response leaves it idle after complete frame transactions. -/
theorem Run.Within.conclude_framed {A : Bytes3 → Prop} {m : Nat} {i : Instr} {s : State} {r : Run (Byte × Half)}
    (h : r.Within A m (s.accept i)) (hs : s.OnLine .rest) : r.conclude.Framed := by
  cases r with
  | done a t =>
    obtain ⟨evs, -, ht⟩ := h
    have hrest : t.OnLine .rest := ht.onLine hs
    exact State.OnLine.framed_of_idle (s := t.respond _) hrest rfl rfl
  | raised e t =>
    obtain ⟨evs, ht⟩ := h
    have hrest : t.OnLine .rest := ht.onLine hs
    exact State.OnLine.framed_of_idle (s := t.raise e) hrest rfl rfl
  | hung t =>
    obtain ⟨evs, l, hl, hne, ht⟩ := h
    exact ht.framed_of_held hs hl hne

/-- The same of the rows that are one frame transaction run by itself, which end on either answer (40_framer.md R120;
log 7). -/
theorem frame_settled_framed (i : Instr) (tx : Bytes3) {s : State} (hs : s.OnLine .rest) :
    (frame tx (s.accept i)).settled.Framed := by
  cases hr : (s.accept i).reply tx with
  | some r =>
    rw [frame_answered hr]
    have hrest := (afterFrame_transports (fun _ => True) tx r (s.accept i) trivial).onLine hs
    exact State.OnLine.framed_of_idle (s := ((s.accept i).afterFrame tx r).settle) hrest rfl rfl
  | none =>
    obtain ⟨evs, l, hpart, he⟩ := frame_held hr
    rw [he]
    exact (heldAt_transports (A := fun _ => True) hpart trivial).framed_of_held hs hpart.holds hpart.began

theorem exec_framed {i : Instr} {s t : State} (hs : s.OnLine .rest) (h : exec i s = .next t) : t.Framed := by
  by_cases hi : i.isCommand = true
  case pos =>
    obtain ⟨r, hr, hw⟩ := exec_within i s hi
    cases hr.symm.trans h
    exact hw.conclude_framed hs
  case neg =>
    cases i <;> first | exact absurd rfl hi | cases h
    case writeFrame addr value => exact frame_settled_framed _ _ hs
    case readRequestFrame addr => exact frame_settled_framed _ _ hs
    case readDataFrameTx dummy => exact frame_settled_framed _ _ hs
    case readDataFrameRx status value => exact State.OnLine.framed_of_idle hs rfl rfl
    case responseWord err aux data => exact State.OnLine.framed_of_idle hs rfl rfl

/-- An idle block's wire is at rest (10_state.md R28). -/
theorem State.Framed.onLine_of_not_busy {s : State} (hs : s.Framed) (hb : s.busy = false) : s.OnLine .rest := by
  obtain ⟨⟨l, hafter, hlevel, hfits⟩, hbusy⟩ := hs
  have hseq : s.seq = .idle := by simpa [hb] using hbusy
  rw [hseq] at hfits
  cases beq_iff_eq.mp hfits
  exact ⟨hafter, hlevel⟩

/-- So is the wire of a block at the first event of its operation. -/
theorem State.Framed.onLine_of_first {s : State} {i : Instr} (hs : s.Framed) (hseq : s.seq = .running i 0) :
    s.OnLine .rest := by
  obtain ⟨⟨l, hafter, hlevel, hfits⟩, -⟩ := hs
  rw [hseq] at hfits
  cases beq_iff_eq.mp hfits
  exact ⟨hafter, hlevel⟩

/-- Whatever operation runs next begins between frame transactions. -/
theorem State.Framed.of_nextOf_run {s s' : State} {i : Instr} (hs : s.Framed) (h : nextOf s = .run i s') :
    s'.OnLine .rest := by
  obtain ⟨-, ⟨-, hseq, rfl⟩ | ⟨w, rest, hb, -, -, rfl⟩⟩ := nextOf_run h
  · exact hs.onLine_of_first hseq
  · exact hs.onLine_of_not_busy hb

/-- Settles O43: by the four things a step can be. -/
theorem framingIsKeptByEveryStep : Obligations.FramingIsKeptByEveryStep := by
  intro s t hs h
  obtain ⟨-, rfl⟩ | ⟨-, rfl⟩ | ⟨i, s', hn, he⟩ | ⟨s', hn, rfl⟩ := step_cases h
  · exact framingHoldsAtReset s.cfg
  · exact hs
  · exact exec_framed (hs.of_nextOf_run hn) he
  · obtain ⟨-, hb, w, rest, -, -, rfl⟩ := nextOf_invalid hn
    exact State.OnLine.framed_of_idle (hs.onLine_of_not_busy hb) rfl rfl

end Sys2Proof.Machine
end

section
/-! What an operation leaves after a list of frame transactions, against the words of the claims (spec/40_framer.md R120
to R123, 60_exceptions.md R228, R229). -/

namespace Sys2Proof.Machine

/-- The state after several complete frame transactions in a row (20_memory.md R62). -/
def State.afterFrames : Frames → State → State
  | [], s => s
  | (tx, r) :: fs, s => (s.afterFrame tx r).afterFrames fs

/-- Turns are the environment's own: using some writes no other field. -/
theorem State.useTurns_eq (n : Nat) (s : State) :
    s.useTurns n = { s with env := (s.useTurns n).env, draws := (s.useTurns n).draws } := by
  induction n generalizing s with
  | zero => rfl
  | succ n ih => exact ih s.useTurn

/-- Which turns are left, and how many free values were drawn, depends on no other field either. -/
theorem State.useTurns_congr (n : Nat) {s t : State} (henv : t.env = s.env) (hdraws : t.draws = s.draws) :
    (t.useTurns n).env = (s.useTurns n).env ∧ (t.useTurns n).draws = (s.useTurns n).draws := by
  induction n generalizing s t with
  | zero => exact ⟨henv, hdraws⟩
  | succ n ih => exact ih (congrArg List.tail henv) (by simp [henv, hdraws])

/-- `completed` field by field. -/
theorem State.completed_eq (fs : Frames) (w : Word) (s : State) :
    s.completed fs w = { s with
      env := (s.useTurns fs.length).env
      draws := (s.useTurns fs.length).draws
      trace := s.trace ++ framesEvents s.cfg fs
      csN := if fs.isEmpty then s.csN else true
      responses := s.responses ++ [w]
      seq := .idle
      busy := false } := by
  rw [State.completed, State.useTurns_eq]

/-- One frame transaction, then the rest of the operation. -/
theorem State.completed_afterFrame (tx : Bytes3) (r : XferResult) (fs : Frames) (w : Word) (s : State) :
    (s.afterFrame tx r).completed fs w = s.completed ((tx, r) :: fs) w := by
  obtain ⟨henv, hdraws⟩ := State.useTurns_congr fs.length (s := s.useTurn) (t := s.afterFrame tx r) rfl rfl
  rw [State.completed_eq, State.completed_eq, henv, hdraws]
  simp [framesEvents, State.afterFrame, State.useTurns]

/-- A response after complete frame transactions leaves what the claims call completed. -/
theorem State.respond_afterFrames (fs : Frames) (w : Word) (s : State) :
    (s.afterFrames fs).respond w = s.completed fs w := by
  induction fs generalizing s with
  | nil => simp [State.afterFrames, State.completed, framesEvents, State.useTurns, State.respond, State.settle]
  | cons p fs ih => exact (ih _).trans (State.completed_afterFrame p.1 p.2 fs w s)

/-- The same of an operation from its acceptance, which shows in no completed operation (10_state.md R27, R28). -/
theorem State.respond_afterFrames_accept (i : Instr) (fs : Frames) (w : Word) (s : State) :
    ((s.accept i).afterFrames fs).respond w = s.completed fs w := by
  obtain ⟨henv, hdraws⟩ := State.useTurns_congr fs.length (s := s) (t := s.accept i) rfl rfl
  rw [State.respond_afterFrames, State.completed_eq, State.completed_eq, henv, hdraws]
  rfl

theorem State.answers_cons {tx : Bytes3} {r : XferResult} {fs : Frames} {s : State} :
    s.answers ((tx, r) :: fs) = true ↔ s.reply tx = some r ∧ s.useTurn.answers fs = true := by
  simp [State.answers]

theorem State.answers_one {tx : Bytes3} {r : XferResult} {s : State} :
    s.answers [(tx, r)] = true ↔ s.reply tx = some r := by
  simp [State.answers]

theorem State.answers_two {tx1 tx2 : Bytes3} {r1 r2 : XferResult} {s : State} :
    s.answers [(tx1, r1), (tx2, r2)] = true ↔ s.reply tx1 = some r1 ∧ s.useTurn.reply tx2 = some r2 := by
  rw [State.answers_cons, State.answers_one]

/-- A raise before any frame changes nothing but the responses and the sequencer (60_exceptions.md R229). -/
theorem State.raise_accept (i : Instr) (e : ErrorCode) (s : State) :
    (s.accept i).raise e = s.rejected (responseOf e 0 0) := rfl

/-- A command that is one write transaction sends its one frame (40_framer.md R121). -/
theorem oneWrite_of_exec {i : Instr} {addr : Byte} {v : Half} {s : State}
    (h : exec i s = .next ((memWrite addr v (s.accept i)).bind fun _ s => respondZero s).conclude) :
    oneWrite i addr v s := by
  constructor
  · intro rx hans
    have hreply : (s.accept i).reply (writeTx addr v) = some (.ok rx) := State.answers_one.mp hans
    rw [h, memWrite_ok hreply, ← State.respond_afterFrames_accept i]
    rfl
  · intro hans
    have hreply : (s.accept i).reply (writeTx addr v) = some .err := State.answers_one.mp hans
    rw [h, memWrite_err hreply, ← State.respond_afterFrames_accept i]
    rfl

/-- A command that begins with a read transaction ends at its failed frame, whatever would follow
(40_framer.md R123). -/
theorem readFailures_of_exec {i : Instr} {addr : Byte} {f : Byte × Half → State → Run (Byte × Half)} {s : State}
    (h : exec i s = .next ((memRead addr (s.accept i)).bind f).conclude) : readFailures i addr s := by
  constructor
  · intro hans
    have hreply : (s.accept i).reply (readRequestTx addr) = some .err := State.answers_one.mp hans
    rw [h, memRead_err_first hreply, ← State.respond_afterFrames_accept i]
    rfl
  · intro r1 hans
    obtain ⟨hfirst, hsecond⟩ := State.answers_two.mp hans
    rw [h, memRead_err_second (s := s.accept i) hfirst hsecond, ← State.respond_afterFrames_accept i]
    rfl

/-- A command that answers from one read transaction latches the status byte, then answers (40_framer.md R123). -/
theorem readSuccess_of_exec {i : Instr} {addr : Byte} {aux : Bytes3 → Byte} {data : Bytes3 → Half}
    {g : Byte × Half → Byte × Half} {s : State}
    (h : exec i s = .next ((memRead addr (s.accept i)).bind fun r s => .done (g r) s).conclude)
    (hg : ∀ rx, g (rx.b0, rx.b1 ++ rx.b2) = (aux rx, data rx)) : readSuccess i addr aux data s := by
  intro r1 rx hans
  obtain ⟨hfirst, hsecond⟩ := State.answers_two.mp hans
  rw [h, memRead_ok (s := s.accept i) hfirst hsecond, rxValue_eq_append, Run.bind_done, hg,
    ← State.respond_afterFrames_accept i]
  rfl

end Sys2Proof.Machine
end

section
/-! WRITE_REG and READ_REG (spec/40_framer.md R122 to R124). -/

namespace Sys2Proof.Machine

/-- The address check of the framer commands is membership of `VALID_ADDR` (40_framer.md R122, R124). -/
theorem validAddr_iff {c : Config} {a : Byte} : validAddr c a = true ↔ a ∈ c.validAddrs := List.contains_iff_mem

/-- WRITE_REG is its address check, then the write transaction (40_framer.md R122). -/
theorem exec_writeReg_eq (addr : Byte) (v : Half) (s : State) :
    exec (.writeReg addr v) s = .next
      ((require .invalidAddress (if validAddr s.cfg addr then some addr else none) (s.accept (.writeReg addr v))).bind
        fun a s => (memWrite a v s).bind fun _ s => respondZero s).conclude := rfl

/-- READ_REG is its address check, then the read transaction (40_framer.md R124). -/
theorem exec_readReg_eq (addr : Byte) (s : State) :
    exec (.readReg addr) s = .next
      ((require .invalidAddress (if validAddr s.cfg addr then some addr else none) (s.accept (.readReg addr))).bind
        fun a s => (memRead a s).bind fun r s => .done (r.1, r.2) s).conclude := rfl

theorem exec_writeReg_of_mem {s : State} {addr : Byte} (v : Half) (h : addr ∈ s.cfg.validAddrs) :
    exec (.writeReg addr v) s = .next
      ((memWrite addr v (s.accept (.writeReg addr v))).bind fun _ s => respondZero s).conclude := by
  rw [exec_writeReg_eq, if_pos (validAddr_iff.mpr h), require_some, Run.bind_done]

theorem exec_writeReg_of_not_mem {s : State} {addr : Byte} (v : Half) (h : addr ∉ s.cfg.validAddrs) :
    exec (.writeReg addr v) s = .next (s.rejected 0x40000000) := by
  rw [exec_writeReg_eq, if_neg (mt validAddr_iff.mp h), require_none, Run.bind_raised, Run.conclude_raised,
    State.raise_accept]
  rfl

theorem exec_readReg_of_mem {s : State} {addr : Byte} (h : addr ∈ s.cfg.validAddrs) :
    exec (.readReg addr) s = .next
      ((memRead addr (s.accept (.readReg addr))).bind fun r s => .done (r.1, r.2) s).conclude := by
  rw [exec_readReg_eq, if_pos (validAddr_iff.mpr h), require_some, Run.bind_done]

theorem exec_readReg_of_not_mem {s : State} {addr : Byte} (h : addr ∉ s.cfg.validAddrs) :
    exec (.readReg addr) s = .next (s.rejected 0x40000000) := by
  rw [exec_readReg_eq, if_neg (mt validAddr_iff.mp h), require_none, Run.bind_raised, Run.conclude_raised,
    State.raise_accept]
  rfl

/-- Settles O9: the address check, then the one write transaction. -/
theorem writeRegSendsOneWriteFrame : Obligations.WriteRegSendsOneWriteFrame := by
  intro s addr v
  refine ⟨exec_writeReg_of_not_mem v, fun h => ?_, fun h => ?_⟩
  · obtain ⟨hok, -⟩ := oneWrite_of_exec (exec_writeReg_of_mem v h)
    exact hok
  · obtain ⟨-, herr⟩ := oneWrite_of_exec (exec_writeReg_of_mem v h)
    exact herr

/-- Settles O10: the address check, then the one read transaction, answered or failed. -/
theorem readRegAnswersStatusAndValue : Obligations.ReadRegAnswersStatusAndValue := by
  intro s addr
  refine ⟨exec_readReg_of_not_mem, fun h => ⟨?_, readFailures_of_exec (exec_readReg_of_mem h)⟩⟩
  exact readSuccess_of_exec (g := fun r => (r.1, r.2)) (exec_readReg_of_mem h) fun _ => rfl

end Sys2Proof.Machine
end

section
/-! SET_RANGE and GET_RANGE as the host sees them: the checks, the frame and the cache, and what GET_RANGE answers after
a SET_RANGE (spec/41_range.md R141, R143, R144). -/

namespace Sys2Proof.Machine

/-- What the channel check refuses (30_encoding.md R90). -/
theorem channelOf_eq_none {a : Byte} : channelOf a = none ↔ 15 < a.toNat := by
  unfold channelOf
  split
  case isTrue h => simp; omega
  case isFalse h => simp; omega

/-- A data field that holds a 4-bit code is the code in the response's low bits (30_encoding.md R82). -/
theorem zero_append_setWidth (x : BitVec 4) : 0#16 ++ x.setWidth 16 = 0#28 ++ x := by
  revert x
  decide

theorem exec_getRange_of_channelOf_none {ch : Byte} (s : State) (hk : channelOf ch = none) :
    exec (.getRange ch) s = .next (s.rejected 0x20000000) := by
  change execGetRange ch s = _
  unfold execGetRange operate
  rw [hk]
  exact congrArg Host.Outcome.next (State.raise_accept _ .invalidChannel s)

/-- Settles O13: the channel check, then the channel's field of the cache. -/
theorem getRangeAnswersFromTheCache : Obligations.GetRangeAnswersFromTheCache := by
  intro s ch
  refine ⟨fun h => exec_getRange_of_channelOf_none s (channelOf_eq_none.mpr h), fun k hk => ?_⟩
  have hfield : s.rangeField k = s.rc[rangeIndex k].extractLsb' (4 * (k.val % 4)) 4 := rangeDecode_eq_extractLsb' _ k
  rw [exec_getRange_of_channelOf s (channelOf_eq_some.mpr hk), zero_append_setWidth, hfield]

/-- The frame SET_RANGE sends: the cached word with the channel's field replaced (41_range.md R141). -/
def State.rangeTx (ch : Fin 16) (code : BitVec 4) (s : State) : Bytes3 :=
  writeTx (rangeAddr s.cfg (rangeIndex ch)) (rangeEncode (s.readRC (rangeIndex ch)) ch code)

/-- The answered write of SET_RANGE's body is followed by the merge into the cache (41_range.md R141). -/
theorem storeRange_ok {valid : List (BitVec 4)} {ch : Fin 16} {code : RangeCode valid} {rx : Bytes3} {s : State}
    (h : s.reply (s.rangeTx ch code.code) = some (.ok rx)) :
    storeRange ch code s = .done () ((s.afterFrame (s.rangeTx ch code.code) (.ok rx)).mergeRange ch code.code) := by
  rw [storeRange, memWrite_ok h]
  rfl

/-- The failed write of SET_RANGE's body ends it before the merge (41_range.md R141). -/
theorem storeRange_err {valid : List (BitVec 4)} {ch : Fin 16} {code : RangeCode valid} {s : State}
    (h : s.reply (s.rangeTx ch code.code) = some .err) :
    storeRange ch code s = .raised .transportError (s.afterFrame (s.rangeTx ch code.code) .err) := by
  rw [storeRange, memWrite_err h]
  rfl

theorem exec_setRange_ok {ch : Byte} {b : Half} {s : State} {k : Fin 16} {code : RangeCode s.cfg.validRange}
    {rx : Bytes3} (hk : channelOf ch = some k) (hc : rangeCodeOf s.cfg b = some code)
    (h : s.reply (s.rangeTx k code.code) = some (.ok rx)) :
    exec (.setRange ch b) s = .next
      { s.completed [(s.rangeTx k code.code, .ok rx)] 0x00000000 with rc := (s.mergeRange k code.code).rc } := by
  change execSetRange ch b s = _
  rw [execSetRange_of_code hk hc, storeRange_ok (s := s.accept _) h,
    ← State.respond_afterFrames_accept (.setRange ch b)]
  rfl

theorem exec_setRange_err {ch : Byte} {b : Half} {s : State} {k : Fin 16} {code : RangeCode s.cfg.validRange}
    (hk : channelOf ch = some k) (hc : rangeCodeOf s.cfg b = some code)
    (h : s.reply (s.rangeTx k code.code) = some .err) :
    exec (.setRange ch b) s = .next (s.completed [(s.rangeTx k code.code, .err)] 0x10000000) := by
  change execSetRange ch b s = _
  rw [execSetRange_of_code hk hc, storeRange_err (s := s.accept _) h,
    ← State.respond_afterFrames_accept (.setRange ch b)]
  rfl

/-- Channel check before code check (41_range.md R141). -/
theorem exec_setRange_of_channelOf_none {ch : Byte} (b : Half) (s : State) (hk : channelOf ch = none) :
    exec (.setRange ch b) s = .next (s.rejected 0x20000000) := by
  change execSetRange ch b s = _
  rw [execSetRange_of_channelOf_none b s hk, State.raise_accept]
  rfl

theorem exec_setRange_of_rangeCodeOf_none {ch : Byte} {b : Half} {s : State} {k : Fin 16}
    (hk : channelOf ch = some k) (hc : rangeCodeOf s.cfg b = none) :
    exec (.setRange ch b) s = .next (s.rejected 0x30000000) := by
  change execSetRange ch b s = _
  rw [execSetRange_of_rangeCodeOf_none hk hc, State.raise_accept]
  rfl

/-- Settles O11: the two checks in their order, then the write, answered or failed. -/
theorem setRangeWritesTheWordThenTheCache : Obligations.SetRangeWritesTheWordThenTheCache := by
  intro s ch b
  refine ⟨fun h => exec_setRange_of_channelOf_none b s (channelOf_eq_none.mpr h), fun k hch => ?_⟩
  have hk : channelOf ch = some k := channelOf_eq_some.mpr hch
  refine ⟨fun h => exec_setRange_of_rangeCodeOf_none hk (rangeCodeOf_eq_none.mpr h), fun c hmem hb => ?_⟩
  have hc : rangeCodeOf s.cfg b = some ⟨c, hmem⟩ := rangeCodeOf_eq_some.mpr hb
  exact ⟨fun rx hans => exec_setRange_ok (code := ⟨c, hmem⟩) hk hc (State.answers_one.mp hans),
    fun hans => exec_setRange_err (code := ⟨c, hmem⟩) hk hc (State.answers_one.mp hans)⟩

/-- SET_RANGE that is no longer in progress has given one response (30_encoding.md R82). -/
theorem responses_of_exec_setRange {ch : Byte} {b : Half} {s t : State} (h : exec (.setRange ch b) s = .next t)
    (hb : t.busy = false) : ∃ e, t.responses = s.responses ++ [e] := by
  obtain ⟨hresp, -⟩ | ⟨-, hbusy, -⟩ := commandsAnswerOnceOrAreHeld _ s t rfl h
  · exact hresp
  · simp [hb] at hbusy

/-- Settles O12: the only merge SET_RANGE makes is the one it answers with OK. -/
theorem setRangeWithoutAnOkLeavesTheCache : Obligations.SetRangeWithoutAnOkLeavesTheCache := by
  intro s t ch b h hne
  obtain ⟨k, code, u, -, -, -, rfl⟩ | ⟨hrc, -⟩ := exec_setRange_cases h
  · obtain ⟨e, he⟩ := responses_of_exec_setRange h rfl
    have hzero : [0x00000000] = [e] := List.append_inj_right' he rfl
    exact absurd (hzero ▸ he) hne
  · exact hrc

/-- A SET_RANGE leaves the field of every other channel, and without an OK that of its own (41_range.md R144). -/
theorem rangeField_of_exec_setRange {b : Half} {s t : State} {k k2 : Fin 16} {e : Word}
    (h : exec (.setRange (BitVec.ofNat 8 k.val) b) s = .next t) (he : t.responses = s.responses ++ [e])
    (hk : e ≠ 0x00000000 ∨ k2 ≠ k) : t.rangeField k2 = s.rangeField k2 := by
  obtain hne | hne := hk
  · have hresp : t.responses ≠ s.responses ++ [0x00000000] := by simpa [he] using hne
    exact State.rangeField_of_rc (setRangeWithoutAnOkLeavesTheCache s t _ b h hresp) k2
  · refine exec_rangeField ?_ h
    have hval : (BitVec.ofNat 8 k.val).toNat = k.val := channelOf_eq_some.mp (channelOf_ofNat k)
    rw [Instr.writesRangeOf, hval]
    exact beq_false_of_ne fun heq => hne (Fin.ext heq.symm)

/-- Settles O14: GET_RANGE answers the channel's field, so it is enough what SET_RANGE does to the fields. -/
theorem setRangeThenGetRangeReturnsTheCode : Obligations.SetRangeThenGetRangeReturnsTheCode := by
  intro s t k b h hb
  obtain ⟨e, he⟩ := responses_of_exec_setRange h hb
  refine ⟨e, he, fun hok => ?_, fun k2 hk => ⟨0#16 ++ (s.rangeField k2).setWidth 16, ?_, ?_⟩⟩
  · rw [exec_getRange_of_channelOf t (channelOf_ofNat k), rangeField_of_exec_setRange_ok h (hok ▸ he)]
  · exact exec_getRange_of_channelOf s (channelOf_ofNat k2)
  · rw [exec_getRange_of_channelOf t (channelOf_ofNat k2), rangeField_of_exec_setRange h he hk]

end Sys2Proof.Machine
end

section
/-! The read-modify-write commands: one shape for SET_POWER, SET_SYNC, SET_BCAST_EN and SET_TOGGLE_MODE, which differ in
the field check, the register and the function of its word (spec/42_bitmask.md R160 to R165). -/

namespace Sys2Proof.Machine

/-- What the two-valued field check refuses (30_encoding.md R91). -/
theorem bitOf_eq_none {b : Half} : bitOf b = none ↔ 1 < b.toNat := by
  unfold bitOf
  match b.toNat with
  | 0 => simp
  | 1 => simp
  | n + 2 => simp

/-- What the two-valued field check accepts (30_encoding.md R91). -/
theorem bitOf_ofBool (bit : Bool) : bitOf ((BitVec.ofBool bit).setWidth 16) = some bit := by
  cases bit <;> rfl

/-- What the mode check refuses (30_encoding.md R91). -/
theorem toggleModeOf_eq_none {b : Half} : toggleModeOf b = none ↔ 3 < b.toNat := by
  unfold toggleModeOf
  match b.toNat with
  | 0 => simp
  | 1 => simp
  | 2 => simp
  | 3 => simp
  | n + 4 => simp

/-- The body of a read-modify-write command: channel check, field check, then the read-modify-write of the channel's
register (42_bitmask.md R160). -/
def checkedRmw {α : Type} (ch : Byte) (field : Option α) (addr : Config → Fin 16 → Byte)
    (f : Config → Fin 16 → α → Half → Half) (s : State) : Run (Byte × Half) :=
  (require .invalidChannel (channelOf ch) s).bind fun k s =>
  (require .invalidFieldCode field s).bind fun x s =>
  (rmw (addr s.cfg k) (f s.cfg k x) s).bind fun _ s =>
  respondZero s

theorem exec_setPower_eq (ch : Byte) (b : Half) (s : State) :
    exec (.setPower ch b) s = .next (checkedRmw ch (bitOf b) (fun c _ => c.aDacPwdwn) (fun _ => powerApply)
      (s.accept (.setPower ch b))).conclude := rfl

theorem exec_setSync_eq (ch : Byte) (b : Half) (s : State) :
    exec (.setSync ch b) s = .next (checkedRmw ch (bitOf b) (fun c _ => c.aSyncConfig) (fun _ => syncApply)
      (s.accept (.setSync ch b))).conclude := rfl

theorem exec_setBcastEn_eq (ch : Byte) (b : Half) (s : State) :
    exec (.setBcastEn ch b) s = .next (checkedRmw ch (bitOf b) (fun c _ => c.aBrdConfig)
      (fun c => broadcastApply c.bcastPolarity) (s.accept (.setBcastEn ch b))).conclude := rfl

theorem exec_setToggleMode_eq (ch : Byte) (b : Half) (s : State) :
    exec (.setToggleMode ch b) s = .next (checkedRmw ch (toggleModeOf b) toggleAddr (fun _ k m v => toggleApply v k m)
      (s.accept (.setToggleMode ch b))).conclude := rfl

/-- Lines of pseudocode run in order, however they are grouped (00_scope.md R12). -/
theorem Run.bind_assoc {α β γ : Type} (r : Run α) (f : α → State → Run β) (g : β → State → Run γ) :
    (r.bind f).bind g = r.bind fun a s => (f a s).bind g := by
  cases r <;> rfl

/-- A read-modify-write whose read is answered goes on with the write, in a state with the status byte latched. -/
theorem rmw_of_read {addr : Byte} {f : Half → Half} {r1 rx : Bytes3} {s : State}
    (h1 : s.reply (readRequestTx addr) = some (.ok r1))
    (h2 : s.useTurn.reply (readDataTx s.cfg.dummyByte) = some (.ok rx)) :
    rmw addr f s = memWrite addr (f (rx.b1 ++ rx.b2))
      ((s.afterFrames [(readRequestTx addr, .ok r1), (readDataTx s.cfg.dummyByte, .ok rx)]).latchStatus rx.b0) := by
  rw [rmw, memRead_ok h1 h2, rxValue_eq_append]
  rfl

/-- A read-modify-write whose three frames are answered (42_bitmask.md R160). -/
theorem rmw_ok {addr : Byte} {f : Half → Half} {r1 rx r3 : Bytes3} {s : State}
    (h1 : s.reply (readRequestTx addr) = some (.ok r1))
    (h2 : s.useTurn.reply (readDataTx s.cfg.dummyByte) = some (.ok rx))
    (h3 : s.useTurn.useTurn.reply (writeTx addr (f (rx.b1 ++ rx.b2))) = some (.ok r3)) :
    rmw addr f s = .done () ((s.afterFrames [(readRequestTx addr, .ok r1), (readDataTx s.cfg.dummyByte, .ok rx),
      (writeTx addr (f (rx.b1 ++ rx.b2)), .ok r3)]).latchStatus rx.b0) := by
  rw [rmw_of_read h1 h2]
  exact memWrite_ok h3

/-- A read-modify-write whose write fails has latched the status byte of its read (42_bitmask.md R160). -/
theorem rmw_err_third {addr : Byte} {f : Half → Half} {r1 rx : Bytes3} {s : State}
    (h1 : s.reply (readRequestTx addr) = some (.ok r1))
    (h2 : s.useTurn.reply (readDataTx s.cfg.dummyByte) = some (.ok rx))
    (h3 : s.useTurn.useTurn.reply (writeTx addr (f (rx.b1 ++ rx.b2))) = some .err) :
    rmw addr f s = .raised .transportError ((s.afterFrames [(readRequestTx addr, .ok r1),
      (readDataTx s.cfg.dummyByte, .ok rx), (writeTx addr (f (rx.b1 ++ rx.b2)), .err)]).latchStatus rx.b0) := by
  rw [rmw_of_read h1 h2]
  exact memWrite_err h3

theorem State.answers_three {tx1 tx2 tx3 : Bytes3} {r1 r2 r3 : XferResult} {s : State} :
    s.answers [(tx1, r1), (tx2, r2), (tx3, r3)] = true ↔
      s.reply tx1 = some r1 ∧ s.useTurn.reply tx2 = some r2 ∧ s.useTurn.useTurn.reply tx3 = some r3 := by
  rw [State.answers_cons, State.answers_two]

/-- A command that is one read-modify-write performs its three frames, or ends at the one that fails
(42_bitmask.md R160). -/
theorem readModifyWrite_of_exec {i : Instr} {addr : Byte} {f : Half → Half} {s : State}
    (h : exec i s = .next ((rmw addr f (s.accept i)).bind fun _ s => respondZero s).conclude) :
    readModifyWrite i addr f s := by
  have hread : (rmw addr f (s.accept i)).bind (fun _ s => respondZero s) = (memRead addr (s.accept i)).bind
      fun r s => (memWrite addr (f r.2) s).bind fun _ s => respondZero s := by
    rw [rmw, Run.bind_assoc]
  refine ⟨fun r1 rx r3 hans => ?_, fun r1 rx hans => ?_, readFailures_of_exec (hread ▸ h)⟩
  · obtain ⟨hfirst, hsecond, hthird⟩ := State.answers_three.mp hans
    rw [h, rmw_ok (s := s.accept i) hfirst hsecond hthird, ← State.respond_afterFrames_accept i]
    rfl
  · obtain ⟨hfirst, hsecond, hthird⟩ := State.answers_three.mp hans
    rw [h, rmw_err_third (s := s.accept i) hfirst hsecond hthird, ← State.respond_afterFrames_accept i]
    rfl

/-- The checks of a read-modify-write command in their order, then its three frames. -/
theorem exec_of_checkedRmw {α : Type} {i : Instr} {ch : Byte} {field : Option α} {addr : Config → Fin 16 → Byte}
    {f : Config → Fin 16 → α → Half → Half} {s : State}
    (h : exec i s = .next (checkedRmw ch field addr f (s.accept i)).conclude) :
    (15 < ch.toNat → exec i s = .next (s.rejected 0x20000000)) ∧
    (∀ k : Fin 16, ch.toNat = k.val →
      (field = none → exec i s = .next (s.rejected 0x30000000)) ∧
      (∀ x, field = some x → readModifyWrite i (addr s.cfg k) (f s.cfg k x) s)) := by
  refine ⟨fun hch => ?_, fun k hk => ⟨fun hnone => ?_, fun x hx => readModifyWrite_of_exec ?_⟩⟩
  · rw [h, checkedRmw, channelOf_eq_none.mpr hch]
    exact congrArg Host.Outcome.next (State.raise_accept i .invalidChannel s)
  · rw [h, checkedRmw, channelOf_eq_some.mpr hk, hnone]
    exact congrArg Host.Outcome.next (State.raise_accept i .invalidFieldCode s)
  · rw [h, checkedRmw, channelOf_eq_some.mpr hk, hx]
    rfl

/-- The commands with a 0 or 1 field are the checked read-modify-write with that field's check. -/
theorem bitmaskCommand_of_exec {cmd : Byte → Half → Instr} {addr : Config → Byte}
    {f : Config → Fin 16 → Bool → Half → Half}
    (h : ∀ ch b s, exec (cmd ch b) s =
      .next (checkedRmw ch (bitOf b) (fun c _ => addr c) f (s.accept (cmd ch b))).conclude) :
    bitmaskCommand cmd addr f := by
  intro s ch b
  obtain ⟨hchannel, hfield⟩ := exec_of_checkedRmw (h ch b s)
  refine ⟨hchannel, fun k hk => ?_⟩
  obtain ⟨hnone, hsome⟩ := hfield k hk
  exact ⟨fun hb => hnone (bitOf_eq_none.mpr hb), fun bit hb => hsome bit (hb ▸ bitOf_ofBool bit)⟩

/-- Settles O15: SET_POWER is the checked read-modify-write of the power-down register. -/
theorem setPowerClearsTheBitToEnable : Obligations.SetPowerClearsTheBitToEnable :=
  bitmaskCommand_of_exec exec_setPower_eq

/-- Settles O16: SET_SYNC is the checked read-modify-write of the sync register. -/
theorem setSyncSetsTheBitForSync : Obligations.SetSyncSetsTheBitForSync :=
  bitmaskCommand_of_exec exec_setSync_eq

/-- The bit is set when it and the polarity agree (42_bitmask.md R163). -/
theorem broadcastApply_eq (p : Polarity) :
    broadcastApply p = fun k bit v => if bit = (p == .direct) then bitSet v k else bitClear v k := by
  funext k bit v
  cases p <;> cases bit <;> rfl

/-- Settles O17: SET_BCAST_EN is the checked read-modify-write of the broadcast register, by polarity and bit. -/
theorem setBcastEnFollowsThePolarity : Obligations.SetBcastEnFollowsThePolarity := by
  refine bitmaskCommand_of_exec fun ch b s => ?_
  simp only [exec_setBcastEn_eq, broadcastApply_eq]

/-- Settles O18: the mode check in place of the bit's, and the register of the channel's half. -/
theorem setToggleModeEditsTheHalfsRegister : Obligations.SetToggleModeEditsTheHalfsRegister := by
  intro s ch b
  obtain ⟨hchannel, hfield⟩ := exec_of_checkedRmw (exec_setToggleMode_eq ch b s)
  refine ⟨hchannel, fun k hk => ?_⟩
  obtain ⟨hnone, hsome⟩ := hfield k hk
  refine ⟨fun hb => hnone (toggleModeOf_eq_none.mpr hb), fun m hm => ⟨fun hlow => ?_, fun hhigh => ?_⟩⟩
  · have haddr : toggleAddr s.cfg k = s.cfg.aToggConfig1 := if_pos hlow
    exact haddr ▸ hsome m hm
  · have haddr : toggleAddr s.cfg k = s.cfg.aToggConfig0 := if_neg (by omega)
    exact haddr ▸ hsome m hm

/-- Clearing a bit forgets that it was set before. -/
theorem bitClear_bitSet (v : Half) (k : Fin 16) : bitClear (bitSet v k) k = bitClear v k := by
  refine BitVec.eq_of_getLsbD_eq fun n _ => ?_
  rw [getLsbD_bitClear, getLsbD_bitClear, getLsbD_bitSet]
  split <;> rfl

/-- Settles O19: the first command leaves the parameters, so the second edits the same register, and clearing the bit
in the word it reads gives the same as clearing it in the word the first one read. -/
theorem powerPairLeavesTheBitCleared : Obligations.PowerPairLeavesTheBitCleared := by
  intro s t k r1 rx r3 q1 qx q3 _ hfirst hread hans
  obtain ⟨hcfg, -, -⟩ := exec_sameOutside hfirst
  obtain ⟨-, hchannel⟩ := setPowerClearsTheBitToEnable t (BitVec.ofNat 8 k.val) 1
  obtain ⟨-, hfield⟩ := hchannel k (channelOf_eq_some.mp (channelOf_ofNat k))
  obtain ⟨hok, -⟩ := hfield true rfl
  have hword : bitClear (qx.b1 ++ qx.b2) k = bitClear (rx.b1 ++ rx.b2) k := by rw [hread, bitClear_bitSet]
  have hsecond := hok q1 qx q3
  simp only [if_true, hword, hcfg] at hsecond
  exact hsecond hans

end Sys2Proof.Machine
end

section
/-! SET_OUTPUT and the triggers: one write frame each, for SET_OUTPUT and TRIGGER_TOGGLE after an operand check
(spec/43_output_trigger.md R180 to R185). -/

namespace Sys2Proof.Machine

/-- The body of a command that checks one operand, then writes one register (43_output_trigger.md R180, R185). -/
def checkedWrite {α : Type} (e : ErrorCode) (operand : Option α) (addr : Config → α → Byte) (v : Config → α → Half)
    (s : State) : Run (Byte × Half) :=
  (require e operand s).bind fun x s =>
  (memWrite (addr s.cfg x) (v s.cfg x) s).bind fun _ s =>
  respondZero s

theorem exec_setOutput_eq (ch : Byte) (value : Half) (s : State) :
    exec (.setOutput ch value) s = .next (checkedWrite .invalidChannel (channelOf ch) outputAddr (fun _ _ => value)
      (s.accept (.setOutput ch value))).conclude := rfl

theorem exec_triggerToggle_eq (sel : Half) (s : State) :
    exec (.triggerToggle sel) s = .next (checkedWrite .invalidFieldCode (selectorOf sel) (fun c _ => c.aTrigger)
      togglePayload (s.accept (.triggerToggle sel))).conclude := rfl

/-- A refused operand answers the check's error without a frame; an accepted one sends the one write frame. -/
theorem exec_of_checkedWrite {α : Type} {i : Instr} {e : ErrorCode} {operand : Option α} {addr : Config → α → Byte}
    {v : Config → α → Half} {s : State}
    (h : exec i s = .next (checkedWrite e operand addr v (s.accept i)).conclude) :
    (operand = none → exec i s = .next (s.rejected (responseOf e 0 0))) ∧
    (∀ x, operand = some x → oneWrite i (addr s.cfg x) (v s.cfg x) s) := by
  refine ⟨fun hnone => ?_, fun x hx => oneWrite_of_exec ?_⟩
  · rw [h, checkedWrite, hnone, require_none, Run.bind_raised, Run.conclude_raised, State.raise_accept]
  · rw [h, checkedWrite, hx, require_some, Run.bind_done]
    rfl

/-- The output register's address is formed from the operand byte itself (20_memory.md R60). -/
theorem outputAddr_of_channel (c : Config) {ch : Byte} {k : Fin 16} (hk : ch.toNat = k.val) :
    outputAddr c k = c.aDacBase + ch := by
  rw [outputAddr, ← hk, BitVec.ofNat_toNat, BitVec.setWidth_eq]

/-- Settles O20: the channel check, then the one write to the channel's output register. -/
theorem setOutputWritesTheChannelsRegister : Obligations.SetOutputWritesTheChannelsRegister := by
  intro s ch value
  obtain ⟨hnone, hsome⟩ := exec_of_checkedWrite (exec_setOutput_eq ch value s)
  refine ⟨fun hch => hnone (channelOf_eq_none.mpr hch), fun hch => ?_⟩
  have hk : ch.toNat = (⟨ch.toNat, by omega⟩ : Fin 16).val := rfl
  exact outputAddr_of_channel s.cfg hk ▸ hsome _ (channelOf_eq_some.mpr hk)

/-- What the selector check refuses: the no-toggle selector 0 and everything above 3 (43_output_trigger.md R185). -/
theorem selectorOf_eq_none {b : Half} : selectorOf b = none ↔ b = 0 ∨ 3 < b.toNat := by
  rw [← BitVec.toNat_inj, selectorOf]
  match b.toNat with
  | 0 => simp
  | 1 => simp
  | 2 => simp
  | 3 => simp
  | n + 4 => simp

/-- Settles O22: the selector check, then the one write of the payload the selector names. -/
theorem triggerToggleWritesTheSelectedPayload : Obligations.TriggerToggleWritesTheSelectedPayload := by
  intro s sel
  obtain ⟨hnone, hsome⟩ := exec_of_checkedWrite (exec_triggerToggle_eq sel s)
  refine ⟨fun hsel => hnone (selectorOf_eq_none.mpr hsel), ?_, ?_, ?_⟩
  · rintro rfl
    exact hsome .one rfl
  · rintro rfl
    exact hsome .two rfl
  · rintro rfl
    exact hsome .three rfl

/-- Settles O21: each plain trigger is its one write transaction. -/
theorem triggersWriteTheirPayload : Obligations.TriggersWriteTheirPayload :=
  fun _ => ⟨oneWrite_of_exec rfl, oneWrite_of_exec rfl, oneWrite_of_exec rfl⟩

end Sys2Proof.Machine
end

section
/-! DEVICE_IDENTITY, IS_RESPONDING and GET_LAST_STATUS (spec/44_identity_init.md R200, R202, R206). -/

namespace Sys2Proof.Machine

/-- The version lies in the low byte of the device-ID register (30_encoding.md R96). -/
theorem version_append (hi lo : Byte) : version (hi ++ lo) = lo.extractLsb' 0 2 :=
  BitVec.extractLsb'_append_eq_of_add_le (by decide)

/-- The family code fills its response field from the right (30_encoding.md R96). -/
theorem setWidth_family (v : Half) : (family v).setWidth 16 = v >>> 2 := by
  refine BitVec.eq_of_getLsbD_eq fun k hk => ?_
  by_cases h : k < 14
  · simp [family, hk, h]
  · simp [family, hk, h, BitVec.getLsbD_of_ge v (2 + k) (by omega)]

/-- Settles O23: the read transaction, answered with the two fields of its value. -/
theorem deviceIdentitySplitsTheIdRegister : Obligations.DeviceIdentitySplitsTheIdRegister := by
  refine fun s => ⟨readSuccess_of_exec (g := fun r => ((version r.2).setWidth 8, (family r.2).setWidth 16)) rfl
    fun rx => ?_, readFailures_of_exec rfl⟩
  rw [version_append, setWidth_family]

/-- What the responding predicate refuses (30_encoding.md R97). -/
theorem responding_eq_false {v : Half} : responding v = false ↔ v = 0x0000#16 ∨ v = 0xFFFF#16 := by
  simp [responding, Decidable.imp_iff_not_or]

/-- Settles O24: the read transaction, answered with the judgement of its value. -/
theorem isRespondingJudgesTheIdValue : Obligations.IsRespondingJudgesTheIdValue := by
  refine fun s => ⟨readSuccess_of_exec (g := fun r => (0, if responding r.2 then 1 else 0)) rfl fun rx => ?_,
    readFailures_of_exec rfl⟩
  by_cases h : rx.b1 ++ rx.b2 = 0x0000#16 ∨ rx.b1 ++ rx.b2 = 0xFFFF#16
  · rw [if_pos h, responding_eq_false.mpr h]
    rfl
  · rw [if_neg h, eq_true_of_ne_false (mt responding_eq_false.mp h)]
    rfl

/-- The status word, its two bits below fourteen zeros (44_identity_init.md R206). -/
theorem statusData_eq_append (p : Phase) (valid : Bool) :
    statusData p valid = 0#14 ++ BitVec.ofBool (p == .initialized) ++ BitVec.ofBool valid := by
  cases p <;> cases valid <;> rfl

/-- Settles O26: the response is given at once, and its fields are the latch and the status word. -/
theorem getLastStatusShowsStatusAndPhase : Obligations.GetLastStatusShowsStatusAndPhase := by
  intro s
  have hexec : exec .getLastStatus s = .next
      ((s.accept .getLastStatus).respond (responseOf .ok s.lastStatus (statusData s.phase s.lastStatusValid))) := rfl
  have hword : responseOf .ok s.lastStatus (statusData s.phase s.lastStatusValid) =
      0#8 ++ s.lastStatus ++ 0#14 ++ BitVec.ofBool (s.phase == .initialized) ++ BitVec.ofBool s.lastStatusValid := by
    rw [statusData_eq_append]
    exact BitVec.append_assoc'.trans (congrArg (· ++ BitVec.ofBool s.lastStatusValid) BitVec.append_assoc')
  rw [hexec, hword]
  exact congrArg Host.Outcome.next (State.respond_afterFrames_accept .getLastStatus [] _ s)

end Sys2Proof.Machine
end

section
/-! The range cache after merges for a list of channels: which field then holds what, and the words of the cache when
every field holds one code (spec/30_encoding.md R92, 44_identity_init.md R204). -/

namespace Sys2Proof.Machine

/-- The state with another range cache. -/
def State.withRanges (rc : Vector Half 4) (s : State) : State := { s with rc := rc }

/-- Merging a list of channels sets their fields and no other (41_range.md R141, R144). -/
theorem State.rangeField_rangesSet (code : BitVec 4) (chs : List (Fin 16)) (k : Fin 16) (s : State) :
    (s.withRanges (rangesSet code chs s.rc)).rangeField k = if k ∈ chs then code else s.rangeField k := by
  induction chs generalizing s with
  | nil => rfl
  | cons ch chs ih =>
    have hmerge : (s.withRanges (rangesSet code (ch :: chs) s.rc)).rangeField k =
        if k ∈ chs then code else (s.mergeRange ch code).rangeField k := ih (s.mergeRange ch code)
    rw [hmerge]
    by_cases hk : k = ch
    · subst hk
      simp
    · simp [hk, State.rangeField_mergeRange_ne hk]

/-- A word is its four fields (30_encoding.md R92). -/
theorem eq_replicated {w : Half} {code : BitVec 4} (h : ∀ j < 4, w.extractLsb' (4 * j) 4 = code) :
    w = replicated code := by
  have hparts : w.extractLsb' (4 * 3) 4 ++ w.extractLsb' (4 * 2) 4 ++ w.extractLsb' (4 * 1) 4 ++
      w.extractLsb' (4 * 0) 4 = w := by
    rw [BitVec.extractLsb'_append_extractLsb'_eq_extractLsb' (by decide),
      BitVec.extractLsb'_append_extractLsb'_eq_extractLsb' (by decide),
      BitVec.extractLsb'_append_extractLsb'_eq_extractLsb' (by decide)]
    exact BitVec.extractLsb'_eq_self
  rw [← hparts, h 3 (by decide), h 2 (by decide), h 1 (by decide), h 0 (by decide)]
  rfl

/-- Every cache word has four channels, so equal fields make equal words (30_encoding.md R92). -/
theorem State.readRC_eq_replicated {s : State} {code : BitVec 4} (h : ∀ k, s.rangeField k = code) (i : Fin 4) :
    s.readRC i = replicated code := by
  refine eq_replicated fun j hj => ?_
  have hindex : rangeIndex ⟨4 * i.val + j, by omega⟩ = i := Fin.ext (by simp only [rangeIndex]; omega)
  have hshift : rangeShift ⟨4 * i.val + j, by omega⟩ = 4 * j := by simp only [rangeShift]; omega
  have hk := h ⟨4 * i.val + j, by omega⟩
  rwa [State.rangeField, rangeDecode_eq_extractLsb', hindex, hshift] at hk

/-- Merging every channel leaves nothing of the cache before (44_identity_init.md R204). Fields are read in a state; any
state with this cache will do. -/
theorem rangesSet_allChannels (code : BitVec 4) (rc : Vector Half 4) :
    rangesSet code allChannels rc = #v[replicated code, replicated code, replicated code, replicated code] := by
  have hall : ∀ k : Fin 16, k ∈ allChannels := by decide
  have hfield : ∀ k, (State.reset.withRanges (rangesSet code allChannels rc)).rangeField k = code := fun k =>
    (State.rangeField_rangesSet code allChannels k (State.reset.withRanges rc)).trans (if_pos (hall k))
  have hrep : #v[replicated code, replicated code, replicated code, replicated code] =
      Vector.replicate 4 (replicated code) := rfl
  rw [hrep]
  refine Vector.ext fun i hi => ?_
  rw [Vector.getElem_replicate]
  exact State.readRC_eq_replicated hfield ⟨i, hi⟩

end Sys2Proof.Machine
end

section
/-! INIT: the write of the SPI configuration, then the loop of range writes, answered or stopped at a failed frame
(spec/44_identity_init.md R204). -/

namespace Sys2Proof.Machine

/-- What the environment answers depends on its turns and the guards alone (60_exceptions.md R236). -/
theorem State.answers_congr {fs : Frames} {s t : State} (hcfg : t.cfg = s.cfg) (henv : t.env = s.env)
    (hdraws : t.draws = s.draws) : t.answers fs = s.answers fs := by
  induction fs generalizing s t with
  | nil => rfl
  | cons p fs ih =>
    have hturn : t.nextTurn p.1 = s.nextTurn p.1 := by simp only [State.nextTurn, henv, hdraws]
    have hreply : t.reply p.1 = s.reply p.1 := by simp only [State.reply, hturn, hcfg]
    have hrest : t.useTurn.answers fs = s.useTurn.answers fs :=
      ih hcfg (congrArg List.tail henv) (by simp [henv, hdraws])
    simp only [State.answers, hreply, hrest]

/-- The answers to a list of frames, the first of which has been sent. -/
theorem State.answers_afterFrame {tx : Bytes3} {r : XferResult} {fs : Frames} {s : State} :
    s.answers ((tx, r) :: fs) = true ↔ s.reply tx = some r ∧ (s.afterFrame tx r).answers fs = true := by
  rw [State.answers_cons, State.answers_congr (s := s.useTurn) (t := s.afterFrame tx r) rfl rfl rfl]

/-- Acceptance shows nothing to the environment (10_state.md R27, R28). -/
theorem State.answers_accept (i : Instr) (fs : Frames) (s : State) : (s.accept i).answers fs = s.answers fs :=
  State.answers_congr rfl rfl rfl

/-! ### The loop of range writes -/

/-- The frame of INIT's loop for one channel, from a range cache (44_identity_init.md R204). -/
def initRangeTx (c : Config) (ch : Fin 16) (rc : Vector Half 4) : Bytes3 :=
  writeTx (rangeAddr c (rangeIndex ch)) (rangeEncode rc[rangeIndex ch] ch c.defaultRange.code)

/-- The range cache after that frame was answered (41_range.md R141). -/
def initRangeStore (c : Config) (ch : Fin 16) (rc : Vector Half 4) : Vector Half 4 :=
  rc.set (rangeIndex ch) (rangeEncode rc[rangeIndex ch] ch c.defaultRange.code)

theorem initRanges_cons_ok {ch : Fin 16} {chs : List (Fin 16)} {rc : Vector Half 4} {rx : Bytes3} {s : State}
    (h : s.reply (initRangeTx s.cfg ch rc) = some (.ok rx)) :
    initRanges (ch :: chs) (s.withRanges rc) = initRanges chs
      ((s.afterFrame (initRangeTx s.cfg ch rc) (.ok rx)).withRanges (initRangeStore s.cfg ch rc)) := by
  have hstore := storeRange_ok (code := s.cfg.defaultRange) (s := s.withRanges rc) h
  exact congrArg (fun r : Run Unit => r.bind fun _ s => initRanges chs s) hstore

theorem initRanges_cons_err {ch : Fin 16} {chs : List (Fin 16)} {rc : Vector Half 4} {s : State}
    (h : s.reply (initRangeTx s.cfg ch rc) = some .err) :
    initRanges (ch :: chs) (s.withRanges rc) =
      .raised .transportError ((s.afterFrame (initRangeTx s.cfg ch rc) .err).withRanges rc) := by
  have hstore := storeRange_err (code := s.cfg.defaultRange) (s := s.withRanges rc) h
  exact congrArg (fun r : Run Unit => r.bind fun _ s => initRanges chs s) hstore

/-- The loop with every range write answered stores every listed channel (44_identity_init.md R204). -/
theorem initRanges_ok {chs : List (Fin 16)} {rc : Vector Half 4} {rs : List Bytes3} {s : State}
    (hlen : rs.length = chs.length)
    (hans : s.answers ((initRangeTxs s.cfg chs rc).zip (rs.map .ok)) = true) :
    initRanges chs (s.withRanges rc) = .done ()
      ((s.afterFrames ((initRangeTxs s.cfg chs rc).zip (rs.map .ok))).withRanges
        (rangesSet s.cfg.defaultRange.code chs rc)) := by
  induction chs generalizing rc rs s with
  | nil => rfl
  | cons ch chs ih =>
    obtain _ | ⟨rx, rs⟩ := rs
    · simp at hlen
    · obtain ⟨hfirst, hrest⟩ := State.answers_afterFrame.mp hans
      rw [initRanges_cons_ok hfirst]
      exact ih (Nat.succ.inj hlen) hrest

/-- The loop stopped at a failed range write has stored the channels before it (44_identity_init.md R204). -/
theorem initRanges_err {chs : List (Fin 16)} {rc : Vector Half 4} {rs : List Bytes3} {tx : Bytes3} {s : State}
    (htx : (initRangeTxs s.cfg chs rc)[rs.length]? = some tx)
    (hans : s.answers ((initRangeTxs s.cfg chs rc).zip (rs.map .ok) ++ [(tx, XferResult.err)]) = true) :
    initRanges chs (s.withRanges rc) = .raised .transportError
      ((s.afterFrames ((initRangeTxs s.cfg chs rc).zip (rs.map .ok) ++ [(tx, XferResult.err)])).withRanges
        (rangesSet s.cfg.defaultRange.code (chs.take rs.length) rc)) := by
  induction chs generalizing rc rs s with
  | nil => simp [initRangeTxs] at htx
  | cons ch chs ih =>
    obtain _ | ⟨rx, rs⟩ := rs
    · obtain rfl : initRangeTx s.cfg ch rc = tx := Option.some.inj htx
      exact initRanges_cons_err (State.answers_one.mp hans)
    · obtain ⟨hfirst, hrest⟩ := State.answers_afterFrame.mp hans
      rw [initRanges_cons_ok hfirst]
      exact ih htx hrest

/-! ### The operation -/

/-- INIT's first frame (44_identity_init.md R204). -/
def initSpiTx (c : Config) : Bytes3 := writeTx c.aSpiConfig c.spiConfigInit

theorem exec_init_eq (s : State) :
    exec .init s = .next ((memWrite s.cfg.aSpiConfig s.cfg.spiConfigInit (s.accept .init)).bind fun _ s =>
      (initRanges allChannels s).bind fun _ s => respondZero s.setInitialized).conclude := rfl

theorem exec_init_of_spi_ok {s : State} {rx : Bytes3} (h : s.reply (initSpiTx s.cfg) = some (.ok rx)) :
    exec .init s = .next ((initRanges allChannels
      (((s.accept .init).afterFrame (initSpiTx s.cfg) (.ok rx)).withRanges s.rc)).bind fun _ s =>
        respondZero s.setInitialized).conclude := by
  rw [exec_init_eq, memWrite_ok (s := s.accept .init) h, Run.bind_done]
  rfl

theorem exec_init_of_spi_err {s : State} (h : s.reply (initSpiTx s.cfg) = some .err) :
    exec .init s = .next (s.completed [(initSpiTx s.cfg, .err)] 0x10000000) := by
  rw [exec_init_eq, memWrite_err (s := s.accept .init) h, ← State.respond_afterFrames_accept .init]
  rfl

/-- A response after frames and merges leaves what the claims call completed, with the cache merged. -/
theorem State.respond_withRanges (i : Instr) (fs : Frames) (rc : Vector Half 4) (w : Word) (s : State) :
    (((s.accept i).afterFrames fs).withRanges rc).respond w = (s.completed fs w).withRanges rc :=
  congrArg (State.withRanges rc) (State.respond_afterFrames_accept i fs w s)

theorem State.respond_setInitialized (w : Word) (s : State) :
    s.setInitialized.respond w = (s.respond w).setInitialized := rfl

theorem State.completed_withRanges_self (fs : Frames) (w : Word) (s : State) :
    (s.completed fs w).withRanges s.rc = s.completed fs w := by
  rw [State.completed_eq]
  rfl

/-- INIT with all its frames answered (44_identity_init.md R204). -/
theorem exec_init_ok {s : State} {rs : List Bytes3} (hlen : rs.length = 17)
    (hans : s.answers ((initTxs s.cfg s.rc).zip (rs.map .ok)) = true) :
    exec .init s = .next ((s.completed ((initTxs s.cfg s.rc).zip (rs.map .ok)) 0x00000000).withRanges
      (rangesSet s.cfg.defaultRange.code allChannels s.rc)).setInitialized := by
  obtain _ | ⟨rx, rs⟩ := rs
  · simp at hlen
  · rw [← State.answers_accept .init] at hans
    obtain ⟨hspi, hranges⟩ := State.answers_afterFrame.mp hans
    have hloop := initRanges_ok (chs := allChannels) (rs := rs)
      (s := (s.accept .init).afterFrame (initSpiTx s.cfg) (.ok rx)) (Nat.succ.inj hlen) hranges
    rw [exec_init_of_spi_ok (s := s) hspi, hloop, Run.bind_done, respondZero, Run.conclude_done,
      State.respond_setInitialized, ← State.respond_withRanges .init]
    rfl

/-- INIT whose frame after `rs.length` answered ones fails (44_identity_init.md R204). -/
theorem exec_init_err {s : State} {rs : List Bytes3} {tx : Bytes3} (htx : (initTxs s.cfg s.rc)[rs.length]? = some tx)
    (hans : s.answers ((initTxs s.cfg s.rc).zip (rs.map .ok) ++ [(tx, XferResult.err)]) = true) :
    exec .init s = .next
      ((s.completed ((initTxs s.cfg s.rc).zip (rs.map .ok) ++ [(tx, XferResult.err)]) 0x10000000).withRanges
        (rangesSet s.cfg.defaultRange.code (allChannels.take (rs.length - 1)) s.rc)) := by
  obtain _ | ⟨rx, rs⟩ := rs
  · obtain rfl : initSpiTx s.cfg = tx := Option.some.inj htx
    rw [exec_init_of_spi_err (State.answers_one.mp hans)]
    exact congrArg Host.Outcome.next (State.completed_withRanges_self _ _ s).symm
  · rw [← State.answers_accept .init] at hans
    obtain ⟨hspi, hranges⟩ := State.answers_afterFrame.mp hans
    have hloop := initRanges_err (rs := rs) (s := (s.accept .init).afterFrame (initSpiTx s.cfg) (.ok rx)) htx hranges
    rw [exec_init_of_spi_ok (s := s) hspi, hloop, Run.bind_raised, Run.conclude_raised, State.raise,
      ← State.respond_withRanges .init]
    rfl

/-- Settles O25: after the answered first frame the loop runs to its end, where no field of the old cache is left, or to
its failed frame. -/
theorem initWritesSeventeenFrames : Obligations.InitWritesSeventeenFrames := by
  refine fun s => ⟨fun rs hlen hans => ?_, fun rs tx => exec_init_err⟩
  rw [exec_init_ok hlen hans, rangesSet_allChannels]
  rfl

end Sys2Proof.Machine
end

section
/-! The block waits where it has nothing to do, and every step answers a next state (spec/10_state.md R28, R43,
60_exceptions.md R228, R231, R236). -/

namespace Sys2Proof.Machine

/-- An idle block with no command presented waits (10_state.md R43). -/
theorem nextOf_of_nothing_presented {s : State} (hr : s.rst = false) (hb : s.busy = false) (hh : s.host = []) :
    nextOf s = .stay := by
  simp [nextOf, nextOfHost, hr, hb, hh]

/-- A busy block past its operation's first event stands at one that has not ended, and looks at no command
(10_state.md R28, 60_exceptions.md R236). -/
theorem nextOf_of_unended_event {s : State} {i : Instr} {k : Nat} (hr : s.rst = false) (hb : s.busy = true)
    (hq : s.seq = .running i (k + 1)) : nextOf s = .stay := by
  simp [nextOf, nextOfSeq, hr, hb, hq]

theorem step_of_stay {s : State} (h : nextOf s = .stay) : step s = .next s := by
  rw [step, h]

/-- A state that a step leaves alone is left alone by any number of steps. -/
theorem run_of_step_self {M : Host.Core} {s : M.State} (h : M.step s = .next s) (n : Nat) : M.run n s = .next s := by
  induction n with
  | zero => rfl
  | succ n ih => exact (run_of_step h n).trans ih

/-- Settles O32: in both situations the block's next step is to wait, which it then does for ever. -/
theorem blockWaitsWithoutCommandOrAnswer : Obligations.BlockWaitsWithoutCommandOrAnswer := by
  intro s n hr hwait
  have hstay : nextOf s = .stay := by
    obtain ⟨hb, hh⟩ | ⟨hb, i, k, hq⟩ := hwait
    · exact nextOf_of_nothing_presented hr hb hh
    · exact nextOf_of_unended_event hr hb hq
  exact run_of_step_self (M := Sys2Proof.core) (step_of_stay hstay) n

/-- Every operation ends in the state its run concludes with, also when it raises or is held (60_exceptions.md R228,
R236). -/
theorem exec_answers (i : Instr) (s : State) : ∃ t, exec i s = .next t := by
  cases i <;> exact ⟨_, rfl⟩

/-- Settles O35: by the four things a step can be. -/
theorem everyStepAnswersANextState : Obligations.EveryStepAnswersANextState := by
  intro s
  unfold step
  cases nextOf s with
  | reset => exact ⟨_, rfl⟩
  | stay => exact ⟨_, rfl⟩
  | run i s' => exact exec_answers i s'
  | invalid s' => exact ⟨_, rfl⟩

end Sys2Proof.Machine
end

section
/-! Commands whose first frame the environment never lets end: whatever would follow the frame, the block stands at it
(spec/60_exceptions.md R236). -/

namespace Sys2Proof.Machine

/-- A command that ends at an unended event of its first frame has changed none of the block's data. -/
theorem heldBy_of_exec_heldAt {i : Instr} {evs : List Event} {l : Line} {s : State}
    (h : exec i s = .next ((s.accept i).heldAt evs l)) : heldBy i s :=
  ⟨_, h, rfl, rfl, rfl, rfl, rfl, rfl⟩

/-- A read transaction whose first frame is never answered stops in that frame (40_framer.md R123). -/
theorem memRead_held {addr : Byte} {s : State} (h : s.reply (readRequestTx addr) = none) :
    ∃ evs l, HeldPart s.cfg (readRequestTx addr) evs l ∧ memRead addr s = .hung (s.heldAt evs l) := by
  obtain ⟨evs, l, hp, he⟩ := frameOk_held h
  exact ⟨evs, l, hp, by rw [memRead, he, Run.bind_hung]⟩

/-- A command that begins with a write transaction. -/
theorem heldBy_of_write {i : Instr} {addr : Byte} {v : Half} {f : Unit → State → Run (Byte × Half)} {s : State}
    (h : exec i s = .next ((memWrite addr v (s.accept i)).bind f).conclude) (hr : s.reply (writeTx addr v) = none) :
    heldBy i s := by
  obtain ⟨evs, l, -, he⟩ := memWrite_held (s := s.accept i) hr
  rw [he, Run.bind_hung, Run.conclude_hung] at h
  exact heldBy_of_exec_heldAt h

/-- A command that begins with a read transaction. -/
theorem heldBy_of_read {i : Instr} {addr : Byte} {f : Byte × Half → State → Run (Byte × Half)} {s : State}
    (h : exec i s = .next ((memRead addr (s.accept i)).bind f).conclude)
    (hr : s.reply (readRequestTx addr) = none) : heldBy i s := by
  obtain ⟨evs, l, -, he⟩ := memRead_held (s := s.accept i) hr
  rw [he, Run.bind_hung, Run.conclude_hung] at h
  exact heldBy_of_exec_heldAt h

/-- A write command whose operand passes its check begins with its write transaction (43_output_trigger.md R181). -/
theorem heldBy_of_checkedWrite {α : Type} {i : Instr} {e : ErrorCode} {operand : Option α} {x : α}
    {addr : Config → α → Byte} {v : Config → α → Half} {s : State}
    (h : exec i s = .next (checkedWrite e operand addr v (s.accept i)).conclude) (hx : operand = some x)
    (hr : s.reply (writeTx (addr s.cfg x) (v s.cfg x)) = none) : heldBy i s := by
  rw [checkedWrite, hx, require_some, Run.bind_done] at h
  exact heldBy_of_write h hr

/-- A read-modify-write command whose operands pass their checks begins with its read transaction
(42_bitmask.md R160). -/
theorem heldBy_of_checkedRmw {α : Type} {i : Instr} {k : Fin 16} {field : Option α} {x : α}
    {addr : Config → Fin 16 → Byte} {f : Config → Fin 16 → α → Half → Half} {s : State}
    (h : exec i s = .next (checkedRmw (BitVec.ofNat 8 k.val) field addr f (s.accept i)).conclude)
    (hx : field = some x) (hr : s.reply (readRequestTx (addr s.cfg k)) = none) : heldBy i s := by
  rw [checkedRmw, channelOf_ofNat, hx, require_some, Run.bind_done, require_some, Run.bind_done, rmw,
    Run.bind_assoc] at h
  exact heldBy_of_read h hr

/-- SET_RANGE of a channel and a valid code begins with the write of the merged word (41_range.md R141). -/
theorem heldBy_setRange {s : State} {k : Fin 16} {c : BitVec 4} (hc : c ∈ s.cfg.validRange)
    (hr : s.reply (s.rangeTx k c) = none) : heldBy (.setRange (BitVec.ofNat 8 k.val) (c.setWidth 16)) s := by
  have hcode : rangeCodeOf s.cfg (c.setWidth 16) = some ⟨c, hc⟩ := rangeCodeOf_eq_some.mpr rfl
  have h : exec (.setRange (BitVec.ofNat 8 k.val) (c.setWidth 16)) s = _ :=
    execSetRange_of_code (channelOf_ofNat k) hcode
  rw [storeRange, Run.bind_assoc] at h
  exact heldBy_of_write h hr

/-- TRIGGER_TOGGLE of a valid selector begins with the write of the payload it names (43_output_trigger.md R185). -/
theorem heldBy_triggerToggle {sel : Half} {k : ToggleSelector} {s : State} (hk : selectorOf sel = some k)
    (hr : s.reply (writeTx s.cfg.aTrigger (togglePayload s.cfg k)) = none) : heldBy (.triggerToggle sel) s :=
  heldBy_of_checkedWrite (exec_triggerToggle_eq sel s) hk hr

/-- Each 2-bit code names a toggle mode (30_encoding.md R91). -/
theorem toggleModeOf_setWidth (m : BitVec 2) : ∃ mode, toggleModeOf (m.setWidth 16) = some mode := by
  refine Option.ne_none_iff_exists'.mp (mt toggleModeOf_eq_none.mp ?_)
  rw [BitVec.toNat_setWidth]
  omega

/-- Settles O37: each command, its operands checked, begins with the write or the read transaction the environment
holds. -/
theorem unansweredFirstFramesHoldTheBlock : Obligations.UnansweredFirstFramesHoldTheBlock := by
  intro s
  refine ⟨fun addr v hmem => heldBy_of_write (exec_writeReg_of_mem v hmem),
    fun addr hmem => heldBy_of_read (exec_readReg_of_mem hmem),
    fun k c hc => heldBy_setRange hc,
    fun k v => heldBy_of_checkedWrite (exec_setOutput_eq _ v s) (channelOf_ofNat k),
    heldBy_of_write rfl, heldBy_of_write rfl, heldBy_of_write rfl,
    heldBy_triggerToggle (k := .one) rfl, heldBy_triggerToggle (k := .two) rfl, heldBy_triggerToggle (k := .three) rfl,
    fun k bit => heldBy_of_checkedRmw (exec_setPower_eq _ _ s) (bitOf_ofBool bit),
    fun k bit => heldBy_of_checkedRmw (exec_setSync_eq _ _ s) (bitOf_ofBool bit),
    fun k bit => heldBy_of_checkedRmw (exec_setBcastEn_eq _ _ s) (bitOf_ofBool bit),
    fun k m hr => ?_,
    fun hr => ⟨heldBy_of_read rfl hr, heldBy_of_read rfl hr⟩,
    heldBy_of_write (exec_init_eq s)⟩
  obtain ⟨mode, hmode⟩ := toggleModeOf_setWidth m
  exact heldBy_of_checkedRmw (exec_setToggleMode_eq _ _ s) hmode hr

end Sys2Proof.Machine
end

section
/-! How much an operation adds to the wire trace: at most its frame transactions (spec/70_reset_and_hazards.md R279), and
nothing after one that failed (40_framer.md R125, R126 (f)). -/

namespace Sys2Proof.Machine

/-- `t`'s wire trace is `s`'s with events added: at most `n` exchanges, a failed one only as the last. -/
def State.ExtendsTrace (n : Nat) (s t : State) : Prop :=
  ∃ evs, t.trace = s.trace ++ evs ∧ (evs.filter Event.isXfer).length ≤ n ∧ FailsLast evs

theorem State.ExtendsTrace.of_trace_eq {s t : State} (n : Nat) (h : t.trace = s.trace) : s.ExtendsTrace n t :=
  ⟨[], by rw [h, List.append_nil], Nat.zero_le n, .nil⟩

theorem Transports.extendsTrace {A : Bytes3 → Prop} {n : Nat} {l : Line} {evs : List Event} {s t : State}
    (h : Transports A n l evs s t) : s.ExtendsTrace n t :=
  ⟨evs, h.trace, h.count, h.last⟩

/-- However a host command's run ends, concluding it adds no event: a response is no transport event, and a held command
is left where it stands (60_exceptions.md R228, R236). -/
theorem Run.Within.conclude_extendsTrace {A : Bytes3 → Prop} {n : Nat} {s : State} {r : Run (Byte × Half)}
    (h : r.Within A n s) : s.ExtendsTrace n r.conclude := by
  cases r with
  | done a t => obtain ⟨evs, -, ht⟩ := h; exact ht.extendsTrace
  | raised e t => obtain ⟨evs, ht⟩ := h; exact ht.extendsTrace
  | hung t => obtain ⟨evs, l, -, -, ht⟩ := h; exact ht.extendsTrace

/-- The rows that are one frame transaction run by itself perform one exchange, on either answer, or are held in it
(40_framer.md R120; log 7). -/
theorem frame_settled_extendsTrace (tx : Bytes3) (s : State) : s.ExtendsTrace 1 (frame tx s).settled := by
  cases hr : s.reply tx with
  | some r =>
    rw [frame_answered hr]
    exact (afterFrame_transports (fun _ => True) tx r s trivial).extendsTrace
  | none =>
    obtain ⟨evs, l, hpart, he⟩ := frame_held hr
    rw [he]
    exact (heldAt_transports (A := fun _ => True) hpart trivial).extendsTrace

theorem exec_extendsTrace {i : Instr} {s t : State} (h : exec i s = .next t) : s.ExtendsTrace i.frameCount t := by
  by_cases hi : i.isCommand = true
  case pos =>
    obtain ⟨r, hr, hw⟩ := exec_within i s hi
    cases hr.symm.trans h
    exact hw.conclude_extendsTrace
  case neg =>
    cases i <;> first | exact absurd rfl hi | cases h
    case writeFrame addr value => exact frame_settled_extendsTrace _ (s.accept _)
    case readRequestFrame addr => exact frame_settled_extendsTrace _ (s.accept _)
    case readDataFrameTx dummy => exact frame_settled_extendsTrace _ (s.accept _)
    case readDataFrameRx status value => exact .of_trace_eq _ rfl
    case responseWord err aux data => exact .of_trace_eq _ rfl

/-- Settles O42: the events an operation adds are those of its run, host command or row of the sequencer. -/
theorem framesPerOperationAreBounded : Obligations.FramesPerOperationAreBounded :=
  fun _ _ _ h => exec_extendsTrace h

end Sys2Proof.Machine
end

section
/-! The reset input (spec/70_reset_and_hazards.md R260, R261). -/

namespace Sys2Proof.Machine

/-- With the reset input asserted the next thing is block reset, whatever is in progress or presented
(70_reset_and_hazards.md R261). -/
theorem nextOf_of_rst {s : State} (h : s.rst = true) : nextOf s = .reset := if_pos h

theorem step_of_rst {s : State} (h : s.rst = true) : step s = .next s.blockReset := by
  rw [step, nextOf_of_rst h]

/-- Every word of the range cache is zero after block reset (10_state.md R43). -/
theorem State.blockReset_rc_getElem (s : State) (i : Fin 4) : s.blockReset.rc[i] = 0x0000 := by
  rw [State.blockReset_rc]
  revert i
  decide

/-- Settles O33: the step is block reset, whose fields are the values of 10_state.md R43 beside those of the outside. -/
theorem resetInputRestoresTheBlock : Obligations.ResetInputRestoresTheBlock := by
  intro s hr
  exact ⟨s.blockReset, step_of_rst hr, s.blockReset_rc_getElem, s.blockReset_phase, s.blockReset_csN,
    s.blockReset_lastStatus, s.blockReset_lastStatusValid, s.blockReset_seq, s.blockReset_busy, s.blockReset_trace,
    s.blockReset_responses, s.blockReset_cfg, s.blockReset_host, s.blockReset_env, s.blockReset_draws⟩

end Sys2Proof.Machine
end

section
/-! The words of the decoder vectors (spec/95_test_vectors.md section 2.1). -/

namespace Sys2Proof

/-- Settles O4: each word that decodes has the fields its operation's row of R81's table asks for (30_encoding.md R81);
the two others are unlisted (R99). -/
theorem decoderReadsSampleWords : Obligations.DecoderReadsSampleWords := by
  have reads : ∀ {w : Word} {i : Instr}, i.Row (cmdOp w) (cmdA w) (cmdB w) → decode .command w = some i :=
    decodeCommand_of_row
  have refuses : ∀ {w : Word}, unlisted w = true → decode .command w = none := (unlistedWordsMatchNoOperation _).mpr
  exact ⟨reads ⟨rfl, rfl, rfl⟩, reads ⟨rfl, rfl⟩, reads ⟨rfl, rfl, rfl⟩, reads ⟨rfl, rfl⟩, reads ⟨rfl, rfl⟩,
    reads ⟨rfl, rfl, rfl⟩, refuses rfl, refuses rfl, reads rfl⟩

end Sys2Proof
end

section
/-! The opcode-table rows that are steps of the sequencer and not host commands, each run by itself (spec/30_encoding.md
R82, R85 to R88; 40_framer.md R120; log 7). -/

namespace Sys2Proof.Machine

/-- Frame transactions give no response (40_framer.md R120). -/
@[simp] theorem State.afterFrames_responses (fs : Frames) (s : State) : (s.afterFrames fs).responses = s.responses := by
  induction fs generalizing s with
  | nil => rfl
  | cons p fs ih => exact ih (s.afterFrame p.1 p.2)

/-- A step that is no host command leaves what a completed operation leaves, but for the response (log 7). -/
theorem State.sequenced_eq_completed (fs : Frames) (w : Word) (s : State) :
    s.sequenced fs = { s.completed fs w with responses := s.responses } := by
  rw [State.sequenced, State.completed_eq, State.useTurns_eq]

/-- The sequencer's return to IDLE after complete frame transactions, from the acceptance of the step on
(10_state.md R27, R28). -/
theorem State.settle_afterFrames_accept (i : Instr) (fs : Frames) (s : State) :
    ((s.accept i).afterFrames fs).settle = s.sequenced fs :=
  calc ((s.accept i).afterFrames fs).settle
    _ = { ((s.accept i).afterFrames fs).respond 0 with responses := ((s.accept i).afterFrames fs).responses } := rfl
    _ = { s.completed fs 0 with responses := s.responses } := by
      rw [State.respond_afterFrames_accept, State.afterFrames_responses]
      rfl
    _ = s.sequenced fs := (State.sequenced_eq_completed fs 0 s).symm

/-- A step that is one frame transaction performs it on either answer (40_framer.md R120). -/
theorem sequence_frame {i : Instr} {tx : Bytes3} {r : XferResult} {s : State} (h : s.answers [(tx, r)] = true) :
    sequence i (frame tx) s = .next (s.sequenced [(tx, r)]) := by
  have hreply : (s.accept i).reply tx = some r := State.answers_one.mp h
  rw [sequence, frame_answered hreply, Run.settled_done, ← State.settle_afterFrames_accept i]
  rfl

/-- The bytes of a write frame, field by field (30_encoding.md R85). -/
theorem writeTx_addr (a : BitVec 6) (v : Half) :
    writeTx (0b00#2 ++ a) v = ⟨a.setWidth 8, v.extractLsb' 8 8, v.extractLsb' 0 8⟩ := by
  rw [← setWidth_addr]
  rfl

/-- The bytes of a read-request frame, field by field (30_encoding.md R86). -/
theorem readRequestTx_addr (a : BitVec 6) : readRequestTx (0b00#2 ++ a) = ⟨0b11#2 ++ a, 0, 0⟩ := by
  rw [← setWidth_addr, readRequestTx, setWidth_addr_or_readMask]

/-- Settles O27: each of the three rows is one frame transaction with the row's bytes. -/
theorem frameRowsPerformOneFrame : Obligations.FrameRowsPerformOneFrame := by
  refine fun s => ⟨fun a v r h => ?_, fun a r h => ?_, fun d r h => ?_⟩
  · rw [← writeTx_addr] at h ⊢
    exact sequence_frame h
  · rw [← readRequestTx_addr] at h ⊢
    exact sequence_frame h
  · exact sequence_frame (tx := readDataTx d) h

/-- The end of a read transaction by itself latches the status byte on the way to IDLE (40_framer.md R123,
10_state.md R26). -/
theorem exec_readDataFrameRx (st : Byte) (v : Half) (s : State) :
    exec (.readDataFrameRx st v) s = .next ((s.sequenced []).withStatus st) := by
  rw [← State.settle_afterFrames_accept (.readDataFrameRx st v)]
  rfl

/-- The response word is given as it stands (30_encoding.md R82, 60_exceptions.md R228). -/
theorem exec_responseWord (e : BitVec 4) (x : Byte) (d : Half) (s : State) :
    exec (.responseWord e x d) s = .next (s.completed [] (e ++ 0#4 ++ x ++ d)) := by
  rw [← State.respond_afterFrames_accept (.responseWord e x d)]
  rfl

/-- Settles O28: neither row has a frame transaction. -/
theorem receiveAndResponseRowsTakeEffect : Obligations.ReceiveAndResponseRowsTakeEffect :=
  fun s => ⟨fun st v => exec_readDataFrameRx st v s, fun e x d => exec_responseWord e x d s⟩

end Sys2Proof.Machine
end
